-- ==== Sys2Proof/Word.lean ====
section
/-! DEFINITION. The two widths of the machine (00_scope.md R8, R9): byte registers and memory cells are 8 bits; PC, SP and
an address held in a register are 16 bits. -/

namespace Sys2Proof

/-- `bits8` of 00_scope.md R9. -/
abbrev Byte := BitVec 8

/-- `bits16` of 00_scope.md R9. -/
abbrev Word := BitVec 16

end Sys2Proof
end

