-- ==== Sys2Proof/Syntax.lean ====
section
/-! DEFINITION. The instruction set as syntax: one constructor for each of the 96 rows of spec/opcode_table.json
(30_encoding.md R155). An operand field has exactly the width the encoding gives it: `n` is one byte (R152) and `nn` is two
bytes (R153), so no term of `Instr` is ill-formed. -/

namespace Sys2Proof

/-- The eight byte registers (10_state.md R50). -/
inductive Reg where
  | a | b | c | d | e | h | l | f
  deriving DecidableEq, Repr

/-- The registers an instruction can name as an 8-bit operand (30_encoding.md R154): F is not one (41_load8.md R300). -/
inductive OpReg where
  | a | b | c | d | e | h | l
  deriving DecidableEq, Repr

/-- An operand register as a register of the file. -/
def OpReg.reg : OpReg → Reg
  | .a => .a
  | .b => .b
  | .c => .c
  | .d => .d
  | .e => .e
  | .h => .h
  | .l => .l

/-- One constructor for each opcode. The comment of each names its byte and the rule that gives its meaning. -/
inductive Instr where
  -- LD r,r' (41_load8.md R300 to R349)
  /-- `LD B,B`, 0x40, R301. -/
  | ldBB
  /-- `LD B,C`, 0x41, R302. -/
  | ldBC
  /-- `LD B,D`, 0x42, R303. -/
  | ldBD
  /-- `LD B,E`, 0x43, R304. -/
  | ldBE
  /-- `LD B,H`, 0x44, R305. -/
  | ldBH
  /-- `LD B,L`, 0x45, R306. -/
  | ldBL
  /-- `LD B,A`, 0x47, R307. -/
  | ldBA
  /-- `LD C,B`, 0x48, R308. -/
  | ldCB
  /-- `LD C,C`, 0x49, R309. -/
  | ldCC
  /-- `LD C,D`, 0x4A, R310. -/
  | ldCD
  /-- `LD C,E`, 0x4B, R311. -/
  | ldCE
  /-- `LD C,H`, 0x4C, R312. -/
  | ldCH
  /-- `LD C,L`, 0x4D, R313. -/
  | ldCL
  /-- `LD C,A`, 0x4F, R314. -/
  | ldCA
  /-- `LD D,B`, 0x50, R315. -/
  | ldDB
  /-- `LD D,C`, 0x51, R316. -/
  | ldDC
  /-- `LD D,D`, 0x52, R317. -/
  | ldDD
  /-- `LD D,E`, 0x53, R318. -/
  | ldDE
  /-- `LD D,H`, 0x54, R319. -/
  | ldDH
  /-- `LD D,L`, 0x55, R320. -/
  | ldDL
  /-- `LD D,A`, 0x57, R321. -/
  | ldDA
  /-- `LD E,B`, 0x58, R322. -/
  | ldEB
  /-- `LD E,C`, 0x59, R323. -/
  | ldEC
  /-- `LD E,D`, 0x5A, R324. -/
  | ldED
  /-- `LD E,E`, 0x5B, R325. -/
  | ldEE
  /-- `LD E,H`, 0x5C, R326. -/
  | ldEH
  /-- `LD E,L`, 0x5D, R327. -/
  | ldEL
  /-- `LD E,A`, 0x5F, R328. -/
  | ldEA
  /-- `LD H,B`, 0x60, R329. -/
  | ldHB
  /-- `LD H,C`, 0x61, R330. -/
  | ldHC
  /-- `LD H,D`, 0x62, R331. -/
  | ldHD
  /-- `LD H,E`, 0x63, R332. -/
  | ldHE
  /-- `LD H,H`, 0x64, R333. -/
  | ldHH
  /-- `LD H,L`, 0x65, R334. -/
  | ldHL
  /-- `LD H,A`, 0x67, R335. -/
  | ldHA
  /-- `LD L,B`, 0x68, R336. -/
  | ldLB
  /-- `LD L,C`, 0x69, R337. -/
  | ldLC
  /-- `LD L,D`, 0x6A, R338. -/
  | ldLD
  /-- `LD L,E`, 0x6B, R339. -/
  | ldLE
  /-- `LD L,H`, 0x6C, R340. -/
  | ldLH
  /-- `LD L,L`, 0x6D, R341. -/
  | ldLL
  /-- `LD L,A`, 0x6F, R342. -/
  | ldLA
  /-- `LD A,B`, 0x78, R343. -/
  | ldAB
  /-- `LD A,C`, 0x79, R344. -/
  | ldAC
  /-- `LD A,D`, 0x7A, R345. -/
  | ldAD
  /-- `LD A,E`, 0x7B, R346. -/
  | ldAE
  /-- `LD A,H`, 0x7C, R347. -/
  | ldAH
  /-- `LD A,L`, 0x7D, R348. -/
  | ldAL
  /-- `LD A,A`, 0x7F, R349. -/
  | ldAA
  -- LD r,n (41_load8.md R350 to R357)
  /-- `LD B,n`, 0x06, R351. -/
  | ldBN (n : Byte)
  /-- `LD C,n`, 0x0E, R352. -/
  | ldCN (n : Byte)
  /-- `LD D,n`, 0x16, R353. -/
  | ldDN (n : Byte)
  /-- `LD E,n`, 0x1E, R354. -/
  | ldEN (n : Byte)
  /-- `LD H,n`, 0x26, R355. -/
  | ldHN (n : Byte)
  /-- `LD L,n`, 0x2E, R356. -/
  | ldLN (n : Byte)
  /-- `LD A,n`, 0x3E, R357. -/
  | ldAN (n : Byte)
  -- LD r,(HL) (41_load8.md R360 to R367)
  /-- `LD B,(HL)`, 0x46, R361. -/
  | ldBAtHL
  /-- `LD C,(HL)`, 0x4E, R362. -/
  | ldCAtHL
  /-- `LD D,(HL)`, 0x56, R363. -/
  | ldDAtHL
  /-- `LD E,(HL)`, 0x5E, R364. -/
  | ldEAtHL
  /-- `LD H,(HL)`, 0x66, R365. -/
  | ldHAtHL
  /-- `LD L,(HL)`, 0x6E, R366. -/
  | ldLAtHL
  /-- `LD A,(HL)`, 0x7E, R367. -/
  | ldAAtHL
  -- LD (HL),r (41_load8.md R360, R370 to R376)
  /-- `LD (HL),B`, 0x70, R370. -/
  | ldAtHLB
  /-- `LD (HL),C`, 0x71, R371. -/
  | ldAtHLC
  /-- `LD (HL),D`, 0x72, R372. -/
  | ldAtHLD
  /-- `LD (HL),E`, 0x73, R373. -/
  | ldAtHLE
  /-- `LD (HL),H`, 0x74, R374. -/
  | ldAtHLH
  /-- `LD (HL),L`, 0x75, R375. -/
  | ldAtHLL
  /-- `LD (HL),A`, 0x77, R376. -/
  | ldAtHLA
  -- LD (HL),n (41_load8.md R380)
  /-- `LD (HL),n`, 0x36, R380. -/
  | ldAtHLN (n : Byte)
  -- A through (BC) and (DE) (41_load8.md R385 to R389)
  /-- `LD (BC),A`, 0x02, R386. -/
  | ldAtBCA
  /-- `LD A,(BC)`, 0x0A, R387. -/
  | ldAAtBC
  /-- `LD (DE),A`, 0x12, R388. -/
  | ldAtDEA
  /-- `LD A,(DE)`, 0x1A, R389. -/
  | ldAAtDE
  -- A through an absolute address (41_load8.md R390 to R392)
  /-- `LD (nn),A`, 0xEA, R391. -/
  | ldAtNNA (nn : Word)
  /-- `LD A,(nn)`, 0xFA, R392. -/
  | ldAAtNN (nn : Word)
  -- the I/O window (41_load8.md R395 to R399)
  /-- `LD (0xFF00+n),A`, 0xE0, R396. -/
  | ldIoNA (n : Byte)
  /-- `LD (0xFF00+C),A`, 0xE2, R397. -/
  | ldIoCA
  /-- `LD A,(0xFF00+n)`, 0xF0, R398. -/
  | ldAIoN (n : Byte)
  /-- `LD A,(0xFF00+C)`, 0xF2, R399. -/
  | ldAIoC
  -- HL+ and HL- (41_load8.md R400 to R404)
  /-- `LD (HL+),A`, 0x22, R401. -/
  | ldAtHLIncA
  /-- `LD A,(HL+)`, 0x2A, R402. -/
  | ldAAtHLInc
  /-- `LD (HL-),A`, 0x32, R403. -/
  | ldAtHLDecA
  /-- `LD A,(HL-)`, 0x3A, R404. -/
  | ldAAtHLDec
  -- LD rr,nn (42_load16.md R500 to R504)
  /-- `LD BC,nn`, 0x01, R501. -/
  | ldBCNN (nn : Word)
  /-- `LD DE,nn`, 0x11, R502. -/
  | ldDENN (nn : Word)
  /-- `LD HL,nn`, 0x21, R503. -/
  | ldHLNN (nn : Word)
  /-- `LD SP,nn`, 0x31, R504. -/
  | ldSPNN (nn : Word)
  -- LD SP,HL; LD HL,SP+n; LD (nn),SP (42_load16.md R510 to R515)
  /-- `LD SP,HL`, 0xF9, R510. -/
  | ldSPHL
  /-- `LD HL,SP+n`, 0xF8, R513. -/
  | ldHLSPN (n : Byte)
  /-- `LD (nn),SP`, 0x08, R515. -/
  | ldAtNNSP (nn : Word)
  -- PUSH (43_push.md R550 to R565)
  /-- `PUSH BC`, 0xC5, R551. -/
  | pushBC
  /-- `PUSH DE`, 0xD5, R552. -/
  | pushDE
  /-- `PUSH HL`, 0xE5, R553. -/
  | pushHL
  /-- `PUSH AF`, 0xF5, R565. -/
  | pushAF
  deriving DecidableEq, Repr

/-- The class `LD r,r'` (41_load8.md R300): destination, then source. -/
def Instr.ldRR : OpReg → OpReg → Instr
  | .b, .b => .ldBB
  | .b, .c => .ldBC
  | .b, .d => .ldBD
  | .b, .e => .ldBE
  | .b, .h => .ldBH
  | .b, .l => .ldBL
  | .b, .a => .ldBA
  | .c, .b => .ldCB
  | .c, .c => .ldCC
  | .c, .d => .ldCD
  | .c, .e => .ldCE
  | .c, .h => .ldCH
  | .c, .l => .ldCL
  | .c, .a => .ldCA
  | .d, .b => .ldDB
  | .d, .c => .ldDC
  | .d, .d => .ldDD
  | .d, .e => .ldDE
  | .d, .h => .ldDH
  | .d, .l => .ldDL
  | .d, .a => .ldDA
  | .e, .b => .ldEB
  | .e, .c => .ldEC
  | .e, .d => .ldED
  | .e, .e => .ldEE
  | .e, .h => .ldEH
  | .e, .l => .ldEL
  | .e, .a => .ldEA
  | .h, .b => .ldHB
  | .h, .c => .ldHC
  | .h, .d => .ldHD
  | .h, .e => .ldHE
  | .h, .h => .ldHH
  | .h, .l => .ldHL
  | .h, .a => .ldHA
  | .l, .b => .ldLB
  | .l, .c => .ldLC
  | .l, .d => .ldLD
  | .l, .e => .ldLE
  | .l, .h => .ldLH
  | .l, .l => .ldLL
  | .l, .a => .ldLA
  | .a, .b => .ldAB
  | .a, .c => .ldAC
  | .a, .d => .ldAD
  | .a, .e => .ldAE
  | .a, .h => .ldAH
  | .a, .l => .ldAL
  | .a, .a => .ldAA

/-- The class `LD r,n` (41_load8.md R350). -/
def Instr.ldRN : OpReg → Byte → Instr
  | .b, n => .ldBN n
  | .c, n => .ldCN n
  | .d, n => .ldDN n
  | .e, n => .ldEN n
  | .h, n => .ldHN n
  | .l, n => .ldLN n
  | .a, n => .ldAN n

/-- The class `LD r,(HL)` (41_load8.md R360). -/
def Instr.ldRAtHL : OpReg → Instr
  | .b => .ldBAtHL
  | .c => .ldCAtHL
  | .d => .ldDAtHL
  | .e => .ldEAtHL
  | .h => .ldHAtHL
  | .l => .ldLAtHL
  | .a => .ldAAtHL

/-- The class `LD (HL),r` (41_load8.md R360). -/
def Instr.ldAtHLR : OpReg → Instr
  | .b => .ldAtHLB
  | .c => .ldAtHLC
  | .d => .ldAtHLD
  | .e => .ldAtHLE
  | .h => .ldAtHLH
  | .l => .ldAtHLL
  | .a => .ldAtHLA

end Sys2Proof
end

