-- ==== Sys2Proof/Decode.lean ====
section
/-! DEFINITION. The decoder and the encoder. The decoder looks the opcode byte up, whole, in the table of
30_encoding.md R155 (40_step.md R203: there is no decode by bit fields), then takes the operand bytes the row's format
asks for. The encoder writes an instruction's bytes from the same encodings. -/

namespace Sys2Proof

/-- `hi ++ lo`: the 16-bit value `hi × 256 + lo` made from two bytes (00_scope.md R9). -/
def pair (hi lo : Byte) : Word := hi ++ lo

/-- `v[7:0]` of a 16-bit value (00_scope.md R9). -/
def loByte (v : Word) : Byte := v.extractLsb' 0 8

/-- `v[15:8]` of a 16-bit value (00_scope.md R9). -/
def hiByte (v : Word) : Byte := v.extractLsb' 8 8

/-- What follows the opcode byte, and the instruction it makes: the formats F1, F2 and F3 (30_encoding.md R151). -/
inductive Form where
  /-- No operand byte. -/
  | f1 (i : Instr)
  /-- One immediate byte. -/
  | f2 (mk : Byte → Instr)
  /-- Two immediate bytes, the low byte first. -/
  | f3 (mk : Word → Instr)

/-- The instruction length in bytes (30_encoding.md R151). -/
def Form.length : Form → Nat
  | .f1 _ => 1
  | .f2 _ => 2
  | .f3 _ => 3

/-- One entry of DECODE (40_step.md R203): the opcode byte, the cycle cost, and the format with the instruction it makes. -/
structure Row where
  opcode : Byte
  cost : Nat
  form : Form

/-- Rows 0x01 to 0x21 of the table of 30_encoding.md R155. -/
def decodeRows0 : List Row :=
  [ ⟨0x01#8, 12, .f3 .ldBCNN⟩
  , ⟨0x02#8, 8, .f1 .ldAtBCA⟩
  , ⟨0x06#8, 8, .f2 .ldBN⟩
  , ⟨0x08#8, 20, .f3 .ldAtNNSP⟩
  , ⟨0x0A#8, 8, .f1 .ldAAtBC⟩
  , ⟨0x0E#8, 8, .f2 .ldCN⟩
  , ⟨0x11#8, 12, .f3 .ldDENN⟩
  , ⟨0x12#8, 8, .f1 .ldAtDEA⟩
  , ⟨0x16#8, 8, .f2 .ldDN⟩
  , ⟨0x1A#8, 8, .f1 .ldAAtDE⟩
  , ⟨0x1E#8, 8, .f2 .ldEN⟩
  , ⟨0x21#8, 12, .f3 .ldHLNN⟩ ]

/-- Rows 0x22 to 0x42 of the table of 30_encoding.md R155. -/
def decodeRows1 : List Row :=
  [ ⟨0x22#8, 8, .f1 .ldAtHLIncA⟩
  , ⟨0x26#8, 8, .f2 .ldHN⟩
  , ⟨0x2A#8, 8, .f1 .ldAAtHLInc⟩
  , ⟨0x2E#8, 8, .f2 .ldLN⟩
  , ⟨0x31#8, 12, .f3 .ldSPNN⟩
  , ⟨0x32#8, 8, .f1 .ldAtHLDecA⟩
  , ⟨0x36#8, 12, .f2 .ldAtHLN⟩
  , ⟨0x3A#8, 8, .f1 .ldAAtHLDec⟩
  , ⟨0x3E#8, 8, .f2 .ldAN⟩
  , ⟨0x40#8, 4, .f1 .ldBB⟩
  , ⟨0x41#8, 4, .f1 .ldBC⟩
  , ⟨0x42#8, 4, .f1 .ldBD⟩ ]

/-- Rows 0x43 to 0x4E of the table of 30_encoding.md R155. -/
def decodeRows2 : List Row :=
  [ ⟨0x43#8, 4, .f1 .ldBE⟩
  , ⟨0x44#8, 4, .f1 .ldBH⟩
  , ⟨0x45#8, 4, .f1 .ldBL⟩
  , ⟨0x46#8, 8, .f1 .ldBAtHL⟩
  , ⟨0x47#8, 4, .f1 .ldBA⟩
  , ⟨0x48#8, 4, .f1 .ldCB⟩
  , ⟨0x49#8, 4, .f1 .ldCC⟩
  , ⟨0x4A#8, 4, .f1 .ldCD⟩
  , ⟨0x4B#8, 4, .f1 .ldCE⟩
  , ⟨0x4C#8, 4, .f1 .ldCH⟩
  , ⟨0x4D#8, 4, .f1 .ldCL⟩
  , ⟨0x4E#8, 8, .f1 .ldCAtHL⟩ ]

/-- Rows 0x4F to 0x5A of the table of 30_encoding.md R155. -/
def decodeRows3 : List Row :=
  [ ⟨0x4F#8, 4, .f1 .ldCA⟩
  , ⟨0x50#8, 4, .f1 .ldDB⟩
  , ⟨0x51#8, 4, .f1 .ldDC⟩
  , ⟨0x52#8, 4, .f1 .ldDD⟩
  , ⟨0x53#8, 4, .f1 .ldDE⟩
  , ⟨0x54#8, 4, .f1 .ldDH⟩
  , ⟨0x55#8, 4, .f1 .ldDL⟩
  , ⟨0x56#8, 8, .f1 .ldDAtHL⟩
  , ⟨0x57#8, 4, .f1 .ldDA⟩
  , ⟨0x58#8, 4, .f1 .ldEB⟩
  , ⟨0x59#8, 4, .f1 .ldEC⟩
  , ⟨0x5A#8, 4, .f1 .ldED⟩ ]

/-- Rows 0x5B to 0x66 of the table of 30_encoding.md R155. -/
def decodeRows4 : List Row :=
  [ ⟨0x5B#8, 4, .f1 .ldEE⟩
  , ⟨0x5C#8, 4, .f1 .ldEH⟩
  , ⟨0x5D#8, 4, .f1 .ldEL⟩
  , ⟨0x5E#8, 8, .f1 .ldEAtHL⟩
  , ⟨0x5F#8, 4, .f1 .ldEA⟩
  , ⟨0x60#8, 4, .f1 .ldHB⟩
  , ⟨0x61#8, 4, .f1 .ldHC⟩
  , ⟨0x62#8, 4, .f1 .ldHD⟩
  , ⟨0x63#8, 4, .f1 .ldHE⟩
  , ⟨0x64#8, 4, .f1 .ldHH⟩
  , ⟨0x65#8, 4, .f1 .ldHL⟩
  , ⟨0x66#8, 8, .f1 .ldHAtHL⟩ ]

/-- Rows 0x67 to 0x72 of the table of 30_encoding.md R155. -/
def decodeRows5 : List Row :=
  [ ⟨0x67#8, 4, .f1 .ldHA⟩
  , ⟨0x68#8, 4, .f1 .ldLB⟩
  , ⟨0x69#8, 4, .f1 .ldLC⟩
  , ⟨0x6A#8, 4, .f1 .ldLD⟩
  , ⟨0x6B#8, 4, .f1 .ldLE⟩
  , ⟨0x6C#8, 4, .f1 .ldLH⟩
  , ⟨0x6D#8, 4, .f1 .ldLL⟩
  , ⟨0x6E#8, 8, .f1 .ldLAtHL⟩
  , ⟨0x6F#8, 4, .f1 .ldLA⟩
  , ⟨0x70#8, 8, .f1 .ldAtHLB⟩
  , ⟨0x71#8, 8, .f1 .ldAtHLC⟩
  , ⟨0x72#8, 8, .f1 .ldAtHLD⟩ ]

/-- Rows 0x73 to 0x7F of the table of 30_encoding.md R155. -/
def decodeRows6 : List Row :=
  [ ⟨0x73#8, 8, .f1 .ldAtHLE⟩
  , ⟨0x74#8, 8, .f1 .ldAtHLH⟩
  , ⟨0x75#8, 8, .f1 .ldAtHLL⟩
  , ⟨0x77#8, 8, .f1 .ldAtHLA⟩
  , ⟨0x78#8, 4, .f1 .ldAB⟩
  , ⟨0x79#8, 4, .f1 .ldAC⟩
  , ⟨0x7A#8, 4, .f1 .ldAD⟩
  , ⟨0x7B#8, 4, .f1 .ldAE⟩
  , ⟨0x7C#8, 4, .f1 .ldAH⟩
  , ⟨0x7D#8, 4, .f1 .ldAL⟩
  , ⟨0x7E#8, 8, .f1 .ldAAtHL⟩
  , ⟨0x7F#8, 4, .f1 .ldAA⟩ ]

/-- Rows 0xC5 to 0xFA of the table of 30_encoding.md R155. -/
def decodeRows7 : List Row :=
  [ ⟨0xC5#8, 16, .f1 .pushBC⟩
  , ⟨0xD5#8, 16, .f1 .pushDE⟩
  , ⟨0xE0#8, 12, .f2 .ldIoNA⟩
  , ⟨0xE2#8, 8, .f1 .ldIoCA⟩
  , ⟨0xE5#8, 16, .f1 .pushHL⟩
  , ⟨0xEA#8, 16, .f3 .ldAtNNA⟩
  , ⟨0xF0#8, 12, .f2 .ldAIoN⟩
  , ⟨0xF2#8, 8, .f1 .ldAIoC⟩
  , ⟨0xF5#8, 16, .f1 .pushAF⟩
  , ⟨0xF8#8, 12, .f2 .ldHLSPN⟩
  , ⟨0xF9#8, 8, .f1 .ldSPHL⟩
  , ⟨0xFA#8, 16, .f3 .ldAAtNN⟩ ]

/-- DECODE: the 96 entries of 30_encoding.md R155. -/
def decodeRows : List Row :=
  decodeRows0 ++ decodeRows1 ++ decodeRows2 ++ decodeRows3 ++ decodeRows4 ++ decodeRows5 ++ decodeRows6 ++ decodeRows7

/-- The first row of `rows` whose opcode is `op`. -/
def findRow (op : Byte) : List Row → Option Row
  | [] => none
  | r :: rows => if r.opcode = op then some r else findRow op rows

/-- `DECODE[op]`, or none where the byte has no entry (40_step.md R203). -/
def rowOf (op : Byte) : Option Row := findRow op decodeRows

/-- Why a list of bytes is no instruction. -/
inductive DecodeError where
  /-- There is no opcode byte. -/
  | empty
  /-- The opcode byte has no entry in DECODE (30_encoding.md R157). -/
  | unimplemented (op : Byte)
  /-- The list ends before the operand bytes of the opcode do. -/
  | truncated (op : Byte)
  deriving DecidableEq, Repr

/-- Take a row's operand bytes from the front of a list, and give the instruction and what is left. -/
def takeOperands (r : Row) (bs : List Byte) : Except DecodeError (Instr × List Byte) :=
  match r.form, bs with
  | .f1 i, rest => .ok (i, rest)
  | .f2 mk, n :: rest => .ok (mk n, rest)
  | .f3 mk, lo :: hi :: rest => .ok (mk (pair hi lo), rest)
  | .f2 _, [] => .error (.truncated r.opcode)
  | .f3 _, [] => .error (.truncated r.opcode)
  | .f3 _, [_] => .error (.truncated r.opcode)

/-- Decode the instruction at the front of a list of bytes (30_encoding.md R150): total, and rejecting by name. -/
def decode : List Byte → Except DecodeError (Instr × List Byte)
  | [] => .error .empty
  | op :: rest =>
    match rowOf op with
    | none => .error (.unimplemented op)
    | some r => takeOperands r rest

/-- The `k` bytes of a number, least significant first. -/
def bytesOfNat : Nat → Nat → List Byte
  | 0, _ => []
  | k + 1, w => BitVec.ofNat 8 w :: bytesOfNat k (w / 256)

/-- The three bytes (the longest instruction) of an instruction given as opcode_table.json numbers its bits: bit 0 is the
least significant bit of the opcode byte, and every bit from `nbits` up is 0. -/
def tableBytes (nbits w : Nat) : List Byte := bytesOfNat 3 (w % 2 ^ nbits)

/-- The instruction the decoder reads from a word of opcode_table.json. -/
def decodeTableWord (nbits w : Nat) : Option Instr :=
  match decode (tableBytes nbits w) with
  | .ok (i, _) => some i
  | .error _ => none

/-- The opcode byte of an instruction (30_encoding.md R155). -/
def Instr.opcode : Instr → Byte
  | .ldBCNN _ => 0x01#8
  | .ldAtBCA => 0x02#8
  | .ldBN _ => 0x06#8
  | .ldAtNNSP _ => 0x08#8
  | .ldAAtBC => 0x0A#8
  | .ldCN _ => 0x0E#8
  | .ldDENN _ => 0x11#8
  | .ldAtDEA => 0x12#8
  | .ldDN _ => 0x16#8
  | .ldAAtDE => 0x1A#8
  | .ldEN _ => 0x1E#8
  | .ldHLNN _ => 0x21#8
  | .ldAtHLIncA => 0x22#8
  | .ldHN _ => 0x26#8
  | .ldAAtHLInc => 0x2A#8
  | .ldLN _ => 0x2E#8
  | .ldSPNN _ => 0x31#8
  | .ldAtHLDecA => 0x32#8
  | .ldAtHLN _ => 0x36#8
  | .ldAAtHLDec => 0x3A#8
  | .ldAN _ => 0x3E#8
  | .ldBB => 0x40#8
  | .ldBC => 0x41#8
  | .ldBD => 0x42#8
  | .ldBE => 0x43#8
  | .ldBH => 0x44#8
  | .ldBL => 0x45#8
  | .ldBAtHL => 0x46#8
  | .ldBA => 0x47#8
  | .ldCB => 0x48#8
  | .ldCC => 0x49#8
  | .ldCD => 0x4A#8
  | .ldCE => 0x4B#8
  | .ldCH => 0x4C#8
  | .ldCL => 0x4D#8
  | .ldCAtHL => 0x4E#8
  | .ldCA => 0x4F#8
  | .ldDB => 0x50#8
  | .ldDC => 0x51#8
  | .ldDD => 0x52#8
  | .ldDE => 0x53#8
  | .ldDH => 0x54#8
  | .ldDL => 0x55#8
  | .ldDAtHL => 0x56#8
  | .ldDA => 0x57#8
  | .ldEB => 0x58#8
  | .ldEC => 0x59#8
  | .ldED => 0x5A#8
  | .ldEE => 0x5B#8
  | .ldEH => 0x5C#8
  | .ldEL => 0x5D#8
  | .ldEAtHL => 0x5E#8
  | .ldEA => 0x5F#8
  | .ldHB => 0x60#8
  | .ldHC => 0x61#8
  | .ldHD => 0x62#8
  | .ldHE => 0x63#8
  | .ldHH => 0x64#8
  | .ldHL => 0x65#8
  | .ldHAtHL => 0x66#8
  | .ldHA => 0x67#8
  | .ldLB => 0x68#8
  | .ldLC => 0x69#8
  | .ldLD => 0x6A#8
  | .ldLE => 0x6B#8
  | .ldLH => 0x6C#8
  | .ldLL => 0x6D#8
  | .ldLAtHL => 0x6E#8
  | .ldLA => 0x6F#8
  | .ldAtHLB => 0x70#8
  | .ldAtHLC => 0x71#8
  | .ldAtHLD => 0x72#8
  | .ldAtHLE => 0x73#8
  | .ldAtHLH => 0x74#8
  | .ldAtHLL => 0x75#8
  | .ldAtHLA => 0x77#8
  | .ldAB => 0x78#8
  | .ldAC => 0x79#8
  | .ldAD => 0x7A#8
  | .ldAE => 0x7B#8
  | .ldAH => 0x7C#8
  | .ldAL => 0x7D#8
  | .ldAAtHL => 0x7E#8
  | .ldAA => 0x7F#8
  | .pushBC => 0xC5#8
  | .pushDE => 0xD5#8
  | .ldIoNA _ => 0xE0#8
  | .ldIoCA => 0xE2#8
  | .pushHL => 0xE5#8
  | .ldAtNNA _ => 0xEA#8
  | .ldAIoN _ => 0xF0#8
  | .ldAIoC => 0xF2#8
  | .pushAF => 0xF5#8
  | .ldHLSPN _ => 0xF8#8
  | .ldSPHL => 0xF9#8
  | .ldAAtNN _ => 0xFA#8

/-- The operand bytes of an instruction, in memory order: the low byte of `nn` first (30_encoding.md R151). -/
def Instr.operandBytes : Instr → List Byte
  | .ldBCNN nn => [loByte nn, hiByte nn]
  | .ldAtBCA => []
  | .ldBN n => [n]
  | .ldAtNNSP nn => [loByte nn, hiByte nn]
  | .ldAAtBC => []
  | .ldCN n => [n]
  | .ldDENN nn => [loByte nn, hiByte nn]
  | .ldAtDEA => []
  | .ldDN n => [n]
  | .ldAAtDE => []
  | .ldEN n => [n]
  | .ldHLNN nn => [loByte nn, hiByte nn]
  | .ldAtHLIncA => []
  | .ldHN n => [n]
  | .ldAAtHLInc => []
  | .ldLN n => [n]
  | .ldSPNN nn => [loByte nn, hiByte nn]
  | .ldAtHLDecA => []
  | .ldAtHLN n => [n]
  | .ldAAtHLDec => []
  | .ldAN n => [n]
  | .ldBB => []
  | .ldBC => []
  | .ldBD => []
  | .ldBE => []
  | .ldBH => []
  | .ldBL => []
  | .ldBAtHL => []
  | .ldBA => []
  | .ldCB => []
  | .ldCC => []
  | .ldCD => []
  | .ldCE => []
  | .ldCH => []
  | .ldCL => []
  | .ldCAtHL => []
  | .ldCA => []
  | .ldDB => []
  | .ldDC => []
  | .ldDD => []
  | .ldDE => []
  | .ldDH => []
  | .ldDL => []
  | .ldDAtHL => []
  | .ldDA => []
  | .ldEB => []
  | .ldEC => []
  | .ldED => []
  | .ldEE => []
  | .ldEH => []
  | .ldEL => []
  | .ldEAtHL => []
  | .ldEA => []
  | .ldHB => []
  | .ldHC => []
  | .ldHD => []
  | .ldHE => []
  | .ldHH => []
  | .ldHL => []
  | .ldHAtHL => []
  | .ldHA => []
  | .ldLB => []
  | .ldLC => []
  | .ldLD => []
  | .ldLE => []
  | .ldLH => []
  | .ldLL => []
  | .ldLAtHL => []
  | .ldLA => []
  | .ldAtHLB => []
  | .ldAtHLC => []
  | .ldAtHLD => []
  | .ldAtHLE => []
  | .ldAtHLH => []
  | .ldAtHLL => []
  | .ldAtHLA => []
  | .ldAB => []
  | .ldAC => []
  | .ldAD => []
  | .ldAE => []
  | .ldAH => []
  | .ldAL => []
  | .ldAAtHL => []
  | .ldAA => []
  | .pushBC => []
  | .pushDE => []
  | .ldIoNA n => [n]
  | .ldIoCA => []
  | .pushHL => []
  | .ldAtNNA nn => [loByte nn, hiByte nn]
  | .ldAIoN n => [n]
  | .ldAIoC => []
  | .pushAF => []
  | .ldHLSPN n => [n]
  | .ldSPHL => []
  | .ldAAtNN nn => [loByte nn, hiByte nn]

/-- The bytes of an instruction, in memory order. -/
def encode (i : Instr) : List Byte := i.opcode :: i.operandBytes

/-- `len` of DECODE's entry for the instruction (40_step.md R203). -/
def Instr.length (i : Instr) : Nat :=
  match rowOf i.opcode with
  | some r => r.form.length
  | none => 0

/-- `cost` of DECODE's entry for the instruction (40_step.md R203). -/
def Instr.cost (i : Instr) : Nat :=
  match rowOf i.opcode with
  | some r => r.cost
  | none => 0

end Sys2Proof
end

