-- ==== Sys2Proof/Config.lean ====
section
/-! DEFINITION. The implementation parameters of 00_scope.md R8, as plain data, and the values this hardware takes by
default. They are fixed when the machine is constructed; `State` carries them because `step` takes nothing but a state
(log entry 1). -/

namespace Sys2Proof

/-- `ADDR_OVERFLOW`: what an address `base + k` past 0xFFFF means (40_step.md R204). -/
inductive AddrOverflow where
  | fault
  | wrap
  deriving DecidableEq, Repr

/-- One input `(sp, n)` at which an instance of `LDHLSP_FLAGS` has a value `(h, c)` of its own. -/
structure LdhlspEntry where
  sp : Word
  n : Byte
  h : Bool
  c : Bool
  deriving DecidableEq, Repr

/-- The four parameters (00_scope.md R8). `ldhlspFlags` lists the inputs at which the instance of `LDHLSP_FLAGS` differs from
the default of 42_load16.md R512; the domain is finite, so every total function of (SP, n) has such a list (log entry 2).
`cycleWidth` is none for the unbounded counter of the model, or the width of an implementation's counter (log entry 3). -/
structure Params where
  memSize : Nat
  addrOverflow : AddrOverflow
  ldhlspFlags : List LdhlspEntry
  cycleWidth : Option Nat
  deriving DecidableEq, Repr

/-- The values this hardware takes by default (00_scope.md R8). -/
def Params.default : Params where
  memSize := 65536
  addrOverflow := .fault
  ldhlspFlags := []
  cycleWidth := none

end Sys2Proof
end

