-- ==== Sys2Proof/Machine/State.lean ====
section
/-! DEFINITION. The machine's state as plain data, the two faults, and reset. -/

namespace Sys2Proof.Machine

/-- The memory's cells that are not 0x00, as pairs of an address and a byte, by rising address (20_memory.md R100). A cell with no
pair reads as 0x00, which is what construction leaves in every cell (20_memory.md R103). -/
abbrev Memory := List Host.Cell

/-- Canonical from address `lo` up: addresses strictly rising from `lo`, and no cell listed that reads as an unlisted one. -/
def Memory.wfFrom : Nat → Memory → Bool
  | _, [] => true
  | lo, (a, v) :: m => decide (lo ≤ a) && decide (v ≠ 0#8) && Memory.wfFrom (a + 1) m

/-- The canonical form: addresses strictly rising, and no entry 0x00. -/
def Memory.wf (m : Memory) : Bool := Memory.wfFrom 0 m

/-- Every listed address is below `size`. -/
def Memory.below (size : Nat) (m : Memory) : Bool := m.all fun cell => decide (cell.1 < size)

/-- The four flags (10_state.md R54). -/
structure Flags where
  /-- Zero. -/
  z : Bool
  /-- Subtract. -/
  n : Bool
  /-- Half-carry. -/
  h : Bool
  /-- Carry. -/
  c : Bool
  deriving DecidableEq, Repr

/-- Everything the spec gives the machine: the registers (10_state.md R50), the flags (R54), the cycle counter (R58) and the memory
(20_memory.md R100), which is all there is (R60); and the parameters fixed at construction (00_scope.md R8), which no step changes. -/
structure State where
  a : Byte
  b : Byte
  c : Byte
  d : Byte
  e : Byte
  h : Byte
  l : Byte
  f : Byte
  pc : Word
  sp : Word
  flags : Flags
  cycles : Nat
  mem : Memory
  params : Params
  deriving DecidableEq, Repr

/-- The two kinds of fault (60_exceptions.md R600). A faulting step answers no state: the caller keeps the state it had
(40_step.md R207), see Machine/Driver.lean. -/
inductive Fault where
  /-- The opcode byte has no entry in DECODE (60_exceptions.md R601): the opcode and PC0. Raised by the fetch
  (Machine/Fetch.lean) through `raiseUnimplementedOpcode`. Safe: the spec names this fault for every such byte. -/
  | unimplementedOpcode (opcode : Byte) (pc : Word)
  /-- An access at an address of MEM_SIZE or more (60_exceptions.md R602): the address, which may be 0x10000 or 0x10001, and PC0.
  Raised by `memRead` and `memWrite` through `raiseOutOfRange`. Safe: the spec names this fault for every such access. -/
  | outOfRangeAddress (address : Nat) (pc : Word)
  deriving DecidableEq, Repr

/-- Why an instruction has no meaning. No meaning of this model refuses. -/
inductive Refusal where
  /-- The instruction of this mnemonic has no meaning yet; only an arm of `exec` may answer it. Safe: nothing follows from it. -/
  | notModelled (mnemonic : String)
  deriving DecidableEq, Repr

/-- What an operation of the machine ends in. -/
abbrev Result (α : Type) := Host.Outcome α Fault Refusal

/-- A Memory Map just constructed: every byte 0 (20_memory.md R103). -/
def Memory.construct : Memory := []

/-- A CPU just constructed and bound to a memory (70_reset_and_hazards.md R700): every register, every flag and the cycle counter
zero (10_state.md R62), and the memory as it is. -/
def State.constructCpu (p : Params) (m : Memory) : State where
  a := 0x00#8
  b := 0x00#8
  c := 0x00#8
  d := 0x00#8
  e := 0x00#8
  h := 0x00#8
  l := 0x00#8
  f := 0x00#8
  pc := 0x0000#16
  sp := 0x0000#16
  flags := ⟨false, false, false, false⟩
  cycles := 0
  mem := m
  params := p

/-- The machine just constructed with the given parameters: the Memory Map first, then the CPU bound to it (70_reset_and_hazards.md
R700), so every register, flag, the cycle counter and every memory cell zero (10_state.md R62). -/
def State.construct (p : Params) : State := State.constructCpu p Memory.construct

/-- The machine right after reset: construction, which is the only reset (70_reset_and_hazards.md R700), with the default
parameters (00_scope.md R8). -/
def State.reset : State := State.construct Params.default

end Sys2Proof.Machine
end

