-- ==== Sys2Proof/Machine/Ops.lean ====
section
/-! DEFINITION. The named operations over registers and memory, raising a fault, and the commit that ends a step. -/

namespace Sys2Proof.Machine

/-- Go on with a result, or stop as it stopped: the first fault of a step is the one it reports (40_step.md R208). -/
def andThen {α β : Type} (r : Result α) (k : α → Result β) :
    Result β :=
  match r with
  | .next v => k v
  | .fault x => .fault x
  | .refused x => .refused x

/-- `raise UnimplementedOpcode(opcode, PC0)` (00_scope.md R12). PC is PC0 until the step commits (10_state.md R56). -/
def raiseUnimplementedOpcode {α : Type} (opcode : Byte) (s : State) : Result α :=
  .fault (.unimplementedOpcode opcode s.pc)

/-- `raise OutOfRangeAddress(addr, PC0)` (00_scope.md R12). -/
def raiseOutOfRange {α : Type} (addr : Nat) (s : State) : Result α :=
  .fault (.outOfRangeAddress addr s.pc)

/-! ### Registers -/

/-- `x[r]` (00_scope.md R10). -/
def State.get (s : State) : Reg → Byte
  | .a => s.a
  | .b => s.b
  | .c => s.c
  | .d => s.d
  | .e => s.e
  | .h => s.h
  | .l => s.l
  | .f => s.f

/-- `x[r] <- v` (00_scope.md R10). -/
def State.set (s : State) (r : Reg) (v : Byte) : State :=
  match r with
  | .a => { s with a := v }
  | .b => { s with b := v }
  | .c => { s with c := v }
  | .d => { s with d := v }
  | .e => { s with e := v }
  | .h => { s with h := v }
  | .l => { s with l := v }
  | .f => { s with f := v }

/-- Read a register pair: `x[hi] ++ x[lo]` (10_state.md R51). -/
def State.getPair (s : State) (hi lo : Reg) : Word := pair (s.get hi) (s.get lo)

/-- Write a register pair: `x[hi] <- v[15:8]`, then `x[lo] <- v[7:0]` (10_state.md R51). -/
def State.setPair (s : State) (hi lo : Reg) (v : Word) : State := (s.set hi (hiByte v)).set lo (loByte v)

/-- `SP <- v`. -/
def State.setSp (s : State) (v : Word) : State := { s with sp := v }

/-- Replace the flags. -/
def State.setFlags (s : State) (fl : Flags) : State := { s with flags := fl }

/-- Replace the memory. -/
def State.setMem (s : State) (m : Memory) : State := { s with mem := m }

/-! ### Memory -/

/-- The byte at an address: the listed one, else the 0x00 of construction (20_memory.md R103). -/
def Memory.read (a : Nat) : Memory → Byte
  | [] => 0x00#8
  | (k, v) :: m => if k = a then v else Memory.read a m

/-- Replace the byte at an address, keeping the canonical form: writing 0x00 removes the entry. -/
def Memory.write (a : Nat) (v : Byte) : Memory → Memory
  | [] => if v = 0x00#8 then [] else [(a, v)]
  | (k, w) :: m =>
    if a < k then (if v = 0x00#8 then (k, w) :: m else (a, v) :: (k, w) :: m)
    else if a = k then (if v = 0x00#8 then m else (a, v) :: m)
    else (k, w) :: Memory.write a v m

/-- `mem[a]`: the contents of a cell, for statements and for the host's eye (00_scope.md R10). -/
def State.peek (s : State) (a : Nat) : Byte := s.mem.read a

/-- `MemRead(addr, 1)` (00_scope.md R11, 20_memory.md R101). -/
def memRead (addr : Nat) (s : State) : Result Byte :=
  if addr < s.params.memSize then .next (s.mem.read addr) else raiseOutOfRange addr s

/-- `MemWrite(addr, 1, v)` (00_scope.md R11, 20_memory.md R102). -/
def memWrite (addr : Nat) (v : Byte) (s : State) : Result State :=
  if addr < s.params.memSize then .next (s.setMem (s.mem.write addr v)) else raiseOutOfRange addr s

/-! ### Resetting again -/

/-- A new CPU on the same memory: resetting again with the memory kept (70_reset_and_hazards.md R700). -/
def State.newCpu (s : State) : State := State.constructCpu s.params s.mem

/-- A new Memory Map and a new CPU bound to it: resetting again with the memory cleared too (70_reset_and_hazards.md R700). MEM_SIZE is
the machine's parameter (00_scope.md R8, log entry 14). -/
def State.newMachine (s : State) : State := State.construct s.params

/-! ### The end of a step -/

/-- Commit: `PC <- wrap16(PC0 + len)` and `cycles <- cycles + cost` (40_step.md R201, R205, R206). -/
def commit (len cost : Nat) (s : State) : Result State :=
  .next { s with pc := s.pc + BitVec.ofNat 16 len, cycles := s.cycles + cost }

/-! ### The stack -/

/-- `push_to_stack(v)`: decrement SP with 16-bit wrap, then write at the new SP (40_step.md R216). -/
def pushToStack (v : Byte) (s : State) : Result State :=
  memWrite (s.sp - 1#16).toNat v (s.setSp (s.sp - 1#16))

end Sys2Proof.Machine
end

