-- ==== Sys2Proof/Machine/Operands.lean ====
section
/-! DEFINITION. The operand forms of 30_encoding.md R154 and the address helpers of 40_step.md. -/

namespace Sys2Proof.Machine

/-- `hl_address()` (40_step.md R209). -/
def hlAddress (s : State) : Word := s.getPair .h .l

/-- `bc_address()` (40_step.md R209). -/
def bcAddress (s : State) : Word := s.getPair .b .c

/-- `de_address()` (40_step.md R209). -/
def deAddress (s : State) : Word := s.getPair .d .e

/-- `0xFF00 + zext_16(offset)`: the I/O window (41_load8.md R395). -/
def ioAddress (offset : Byte) : Word := 0xFF00#16 + offset.setWidth 16

/-- `increment_hl()`: add 1 with 16-bit wrap, then split into H and L (40_step.md R210). -/
def incrementHl (s : State) : State := s.setPair .h .l (hlAddress s + 1#16)

/-- `decrement_hl()`: subtract 1 with 16-bit wrap, then split into H and L (40_step.md R210). -/
def decrementHl (s : State) : State := s.setPair .h .l (hlAddress s - 1#16)

/-- `addr_plus(base, k)`: the address `k` bytes after `base` (40_step.md R204). -/
def addrPlus (p : Params) (base k : Nat) : Nat :=
  match p.addrOverflow with
  | .fault => base + k
  | .wrap => (base + k) % 65536

/-- `two_byte_address(base)`: the low byte at `base`, then the high byte after it (40_step.md R211). -/
def twoByteAddress (base : Nat) (s : State) : Result Word :=
  andThen (memRead base s) fun lo =>
  andThen (memRead (addrPlus s.params base 1) s) fun hi =>
  .next (pair hi lo)

/-- `SP + sext_16(n)`, an exact integer (42_load16.md R512). -/
def spPlus (sp : Word) (n : Byte) : Int := (sp.toNat : Int) + n.toInt

/-- `wrap16(v)` of an integer (00_scope.md R9). -/
def wrap16 (v : Int) : Word := BitVec.ofInt 16 v

/-- Load a register from the byte at an address, and commit. -/
def loadByte (r : Reg) (addr len cost : Nat) (s : State) : Result State :=
  andThen (memRead addr s) fun v => commit len cost (s.set r v)

/-- Store a byte at an address, and commit. -/
def storeByte (addr : Nat) (v : Byte) (len cost : Nat) (s : State) : Result State :=
  andThen (memWrite addr v s) (commit len cost)

/-- Push a high byte, then a low byte, and commit (43_push.md R550). -/
def pushPair (hi lo : Byte) (len cost : Nat) (s : State) : Result State :=
  andThen (pushToStack hi s) fun s₁ => andThen (pushToStack lo s₁) (commit len cost)

end Sys2Proof.Machine
end

