-- ==== Sys2Proof/Machine/Flags.lean ====
section
/-! DEFINITION. The flag engine: the helpers of 40_step.md R212 to R215, the parameter LDHLSP_FLAGS (42_load16.md R512) and the flags byte
of PUSH AF (43_push.md R560). -/

namespace Sys2Proof.Machine

/-- `set_zero_flag` (40_step.md R212). -/
def setZeroFlag (s : State) : State := s.setFlags { s.flags with z := true }

/-- `clear_zero_flag` (40_step.md R212). -/
def clearZeroFlag (s : State) : State := s.setFlags { s.flags with z := false }

/-- `set_subtract_flag` (40_step.md R212). -/
def setSubtractFlag (s : State) : State := s.setFlags { s.flags with n := true }

/-- `clear_subtract_flag` (40_step.md R212). -/
def clearSubtractFlag (s : State) : State := s.setFlags { s.flags with n := false }

/-- `v[i]` of an integer: bit `i` of its two's-complement form, at any width above `i` (00_scope.md R9). -/
def intBit (v : Int) (i : Nat) : Bool := (BitVec.ofInt (i + 1) v).getLsbD i

/-- The operation width `adjust_carry_flag` takes (40_step.md R214). -/
inductive OpWidth where
  | w8
  | w16
  deriving DecidableEq, Repr

/-- `result > 0xFF` or `result > 0xFFFF`: what `adjust_carry_flag` gives C (40_step.md R214). -/
def carryOf (result : Int) : OpWidth → Bool
  | .w8 => decide (result > 0xFF)
  | .w16 => decide (result > 0xFFFF)

/-- `orig[3] == 1 and result[4] == 1`: what `adjust_half_carry_flag` gives H, the heuristic the source asks to reproduce
(40_step.md R215, 90_conflicts.md C3). -/
def halfCarryOf (orig : Byte) (result : Int) : Bool := orig.getLsbD 3 && intBit result 4

/-- `adjust_zero_flag(result)` (40_step.md R213). No instruction calls it. -/
def adjustZeroFlag (result : Int) (s : State) : State :=
  s.setFlags { s.flags with z := decide (BitVec.ofInt 8 result = 0x00#8) }

/-- `adjust_carry_flag(result, width)` (40_step.md R214). -/
def adjustCarryFlag (result : Int) (width : OpWidth) (s : State) : State :=
  s.setFlags { s.flags with c := carryOf result width }

/-- `adjust_half_carry_flag(orig, result)` (40_step.md R215). -/
def adjustHalfCarryFlag (orig : Byte) (result : Int) (s : State) : State :=
  s.setFlags { s.flags with h := halfCarryOf orig result }

/-- The default of `LDHLSP_FLAGS(SP, n)`, as (H, C) (42_load16.md R512). -/
def ldhlspDefault (sp : Word) (n : Byte) : Bool × Bool :=
  (halfCarryOf (loByte sp) (spPlus sp n), carryOf (spPlus sp n) .w16)

/-- The value a list of exceptions gives at (SP, n), or the default where it names none. -/
def ldhlspLookup (sp : Word) (n : Byte) : List LdhlspEntry → Bool × Bool
  | [] => ldhlspDefault sp n
  | x :: xs => if x.sp = sp ∧ x.n = n then (x.h, x.c) else ldhlspLookup sp n xs

/-- `LDHLSP_FLAGS(SP, n)` as (H, C): the instance the parameters name (42_load16.md R512). -/
def ldhlspFlags (p : Params) (sp : Word) (n : Byte) : Bool × Bool := ldhlspLookup sp n p.ldhlspFlags

/-- `(flag.H, flag.C) <- (h, c)` (42_load16.md R513). -/
def assignHC (hc : Bool × Bool) (s : State) : State := s.setFlags { s.flags with h := hc.1, c := hc.2 }

/-- `flags_byte()`: the masks 0x80, 0x40 and 0x20 for Z, N and H, and 0x09 for C, OR-ed into a zero byte (43_push.md R560,
90_conflicts.md C2). F is not read. -/
def flagsByte (fl : Flags) : Byte :=
  (if fl.z then 0x80#8 else 0x00#8) ||| (if fl.n then 0x40#8 else 0x00#8) |||
    (if fl.h then 0x20#8 else 0x00#8) ||| (if fl.c then 0x09#8 else 0x00#8)

end Sys2Proof.Machine
end

