-- ==== Sys2Proof/Machine/Load16.lean ====
section
/-! DEFINITION. 16-bit loads: `LD rr,nn`, `LD SP,HL`, `LD HL,SP+n`, `LD (nn),SP` (42_load16.md). -/

namespace Sys2Proof.Machine

/-! ### LD rr,nn (42_load16.md R500 to R504) -/

/-- `LD BC,nn` (R501). -/
def execLdBCNN (nn : Word) (s : State) : Result State :=
  commit 3 12 (s.setPair .b .c nn)

/-- `LD DE,nn` (R502). -/
def execLdDENN (nn : Word) (s : State) : Result State :=
  commit 3 12 (s.setPair .d .e nn)

/-- `LD HL,nn` (R503). -/
def execLdHLNN (nn : Word) (s : State) : Result State :=
  commit 3 12 (s.setPair .h .l nn)

/-- `LD SP,nn` (R504). -/
def execLdSPNN (nn : Word) (s : State) : Result State :=
  commit 3 12 (s.setSp nn)

/-! ### LD SP,HL; LD HL,SP+n; LD (nn),SP (42_load16.md R510 to R515) -/

/-- `LD SP,HL` (R510). -/
def execLdSPHL (s : State) : Result State :=
  commit 1 8 (s.setSp (hlAddress s))

/-- `LD HL,SP+n` (R513). -/
def execLdHLSPN (n : Byte) (s : State) : Result State :=
  commit 2 12
    (assignHC (ldhlspFlags s.params s.sp n)
      (clearSubtractFlag (clearZeroFlag (s.setPair .h .l (wrap16 (spPlus s.sp n))))))

/-- `LD (nn),SP` (R515). -/
def execLdAtNNSP (nn : Word) (s : State) : Result State :=
  andThen (memWrite nn.toNat (loByte s.sp) s) fun s₁ =>
    andThen (memWrite (addrPlus s.params nn.toNat 1) (hiByte s.sp) s₁) (commit 3 20)

end Sys2Proof.Machine
end

