-- ==== Sys2Proof/Machine/Load8Imm.lean ====
section
/-! DEFINITION. Loads and stores of an immediate byte: `LD r,n` (41_load8.md R350 to R357) and `LD (HL),n` (R380). -/

namespace Sys2Proof.Machine

/-! ### LD r,n (41_load8.md R350 to R357) -/

/-- `LD B,n` (R351). -/
def execLdBN (n : Byte) (s : State) : Result State :=
  commit 2 8 (s.set .b n)

/-- `LD C,n` (R352). -/
def execLdCN (n : Byte) (s : State) : Result State :=
  commit 2 8 (s.set .c n)

/-- `LD D,n` (R353). -/
def execLdDN (n : Byte) (s : State) : Result State :=
  commit 2 8 (s.set .d n)

/-- `LD E,n` (R354). -/
def execLdEN (n : Byte) (s : State) : Result State :=
  commit 2 8 (s.set .e n)

/-- `LD H,n` (R355). -/
def execLdHN (n : Byte) (s : State) : Result State :=
  commit 2 8 (s.set .h n)

/-- `LD L,n` (R356). -/
def execLdLN (n : Byte) (s : State) : Result State :=
  commit 2 8 (s.set .l n)

/-- `LD A,n` (R357). -/
def execLdAN (n : Byte) (s : State) : Result State :=
  commit 2 8 (s.set .a n)

/-! ### LD (HL),n (41_load8.md R380) -/

/-- `LD (HL),n` (R380). -/
def execLdAtHLN (n : Byte) (s : State) : Result State :=
  storeByte (hlAddress s).toNat n 2 12 s

end Sys2Proof.Machine
end

