-- ==== Sys2Proof/Machine/Load8Mem.lean ====
section
/-! DEFINITION. 8-bit loads and stores through memory: `(HL)`, `(BC)`, `(DE)`, `(nn)`, the I/O window, and the HL+ and HL- forms
(41_load8.md R360 to R376, R385 to R404). -/

namespace Sys2Proof.Machine

/-! ### LD r,(HL) (41_load8.md R360 to R367) -/

/-- `LD B,(HL)` (R361). -/
def execLdBAtHL (s : State) : Result State :=
  loadByte .b (hlAddress s).toNat 1 8 s

/-- `LD C,(HL)` (R362). -/
def execLdCAtHL (s : State) : Result State :=
  loadByte .c (hlAddress s).toNat 1 8 s

/-- `LD D,(HL)` (R363). -/
def execLdDAtHL (s : State) : Result State :=
  loadByte .d (hlAddress s).toNat 1 8 s

/-- `LD E,(HL)` (R364). -/
def execLdEAtHL (s : State) : Result State :=
  loadByte .e (hlAddress s).toNat 1 8 s

/-- `LD H,(HL)` (R365). -/
def execLdHAtHL (s : State) : Result State :=
  loadByte .h (hlAddress s).toNat 1 8 s

/-- `LD L,(HL)` (R366). -/
def execLdLAtHL (s : State) : Result State :=
  loadByte .l (hlAddress s).toNat 1 8 s

/-- `LD A,(HL)` (R367). -/
def execLdAAtHL (s : State) : Result State :=
  loadByte .a (hlAddress s).toNat 1 8 s

/-! ### LD (HL),r (41_load8.md R360, R370 to R376) -/

/-- `LD (HL),B` (R370). -/
def execLdAtHLB (s : State) : Result State :=
  storeByte (hlAddress s).toNat s.b 1 8 s

/-- `LD (HL),C` (R371). -/
def execLdAtHLC (s : State) : Result State :=
  storeByte (hlAddress s).toNat s.c 1 8 s

/-- `LD (HL),D` (R372). -/
def execLdAtHLD (s : State) : Result State :=
  storeByte (hlAddress s).toNat s.d 1 8 s

/-- `LD (HL),E` (R373). -/
def execLdAtHLE (s : State) : Result State :=
  storeByte (hlAddress s).toNat s.e 1 8 s

/-- `LD (HL),H` (R374). -/
def execLdAtHLH (s : State) : Result State :=
  storeByte (hlAddress s).toNat s.h 1 8 s

/-- `LD (HL),L` (R375). -/
def execLdAtHLL (s : State) : Result State :=
  storeByte (hlAddress s).toNat s.l 1 8 s

/-- `LD (HL),A` (R376). -/
def execLdAtHLA (s : State) : Result State :=
  storeByte (hlAddress s).toNat s.a 1 8 s

/-! ### A through (BC) and (DE) (41_load8.md R385 to R389) -/

/-- `LD (BC),A` (R386). -/
def execLdAtBCA (s : State) : Result State :=
  storeByte (bcAddress s).toNat s.a 1 8 s

/-- `LD A,(BC)` (R387). -/
def execLdAAtBC (s : State) : Result State :=
  loadByte .a (bcAddress s).toNat 1 8 s

/-- `LD (DE),A` (R388). -/
def execLdAtDEA (s : State) : Result State :=
  storeByte (deAddress s).toNat s.a 1 8 s

/-- `LD A,(DE)` (R389). -/
def execLdAAtDE (s : State) : Result State :=
  loadByte .a (deAddress s).toNat 1 8 s

/-! ### A through an absolute address (41_load8.md R390 to R392) -/

/-- `LD (nn),A` (R391). -/
def execLdAtNNA (nn : Word) (s : State) : Result State :=
  storeByte nn.toNat s.a 3 16 s

/-- `LD A,(nn)` (R392). -/
def execLdAAtNN (nn : Word) (s : State) : Result State :=
  loadByte .a nn.toNat 3 16 s

/-! ### the I/O window (41_load8.md R395 to R399) -/

/-- `LD (0xFF00+n),A` (R396). -/
def execLdIoNA (n : Byte) (s : State) : Result State :=
  storeByte (ioAddress n).toNat s.a 2 12 s

/-- `LD (0xFF00+C),A` (R397). -/
def execLdIoCA (s : State) : Result State :=
  storeByte (ioAddress s.c).toNat s.a 1 8 s

/-- `LD A,(0xFF00+n)` (R398). -/
def execLdAIoN (n : Byte) (s : State) : Result State :=
  loadByte .a (ioAddress n).toNat 2 12 s

/-- `LD A,(0xFF00+C)` (R399). -/
def execLdAIoC (s : State) : Result State :=
  loadByte .a (ioAddress s.c).toNat 1 8 s

/-! ### HL+ and HL- (41_load8.md R400 to R404) -/

/-- `LD (HL+),A` (R401). -/
def execLdAtHLIncA (s : State) : Result State :=
  andThen (memWrite (hlAddress s).toNat s.a s) fun s₁ => commit 1 8 (incrementHl s₁)

/-- `LD A,(HL+)` (R402). -/
def execLdAAtHLInc (s : State) : Result State :=
  andThen (memRead (hlAddress s).toNat s) fun v => commit 1 8 (incrementHl (s.set .a v))

/-- `LD (HL-),A` (R403). -/
def execLdAtHLDecA (s : State) : Result State :=
  andThen (memWrite (hlAddress s).toNat s.a s) fun s₁ => commit 1 8 (decrementHl s₁)

/-- `LD A,(HL-)` (R404). -/
def execLdAAtHLDec (s : State) : Result State :=
  andThen (memRead (hlAddress s).toNat s) fun v => commit 1 8 (decrementHl (s.set .a v))

end Sys2Proof.Machine
end

