-- ==== Sys2Proof/Machine/Load8Reg.lean ====
section
/-! DEFINITION. `LD r,r'`: copy one byte register into another (41_load8.md R300 to R349). A self-move changes PC and cycles only. -/

namespace Sys2Proof.Machine

/-! ### LD r,r' (41_load8.md R300 to R349) -/

/-- `LD B,B` (R301). -/
def execLdBB (s : State) : Result State :=
  commit 1 4 (s.set .b (s.get .b))

/-- `LD B,C` (R302). -/
def execLdBC (s : State) : Result State :=
  commit 1 4 (s.set .b (s.get .c))

/-- `LD B,D` (R303). -/
def execLdBD (s : State) : Result State :=
  commit 1 4 (s.set .b (s.get .d))

/-- `LD B,E` (R304). -/
def execLdBE (s : State) : Result State :=
  commit 1 4 (s.set .b (s.get .e))

/-- `LD B,H` (R305). -/
def execLdBH (s : State) : Result State :=
  commit 1 4 (s.set .b (s.get .h))

/-- `LD B,L` (R306). -/
def execLdBL (s : State) : Result State :=
  commit 1 4 (s.set .b (s.get .l))

/-- `LD B,A` (R307). -/
def execLdBA (s : State) : Result State :=
  commit 1 4 (s.set .b (s.get .a))

/-- `LD C,B` (R308). -/
def execLdCB (s : State) : Result State :=
  commit 1 4 (s.set .c (s.get .b))

/-- `LD C,C` (R309). -/
def execLdCC (s : State) : Result State :=
  commit 1 4 (s.set .c (s.get .c))

/-- `LD C,D` (R310). -/
def execLdCD (s : State) : Result State :=
  commit 1 4 (s.set .c (s.get .d))

/-- `LD C,E` (R311). -/
def execLdCE (s : State) : Result State :=
  commit 1 4 (s.set .c (s.get .e))

/-- `LD C,H` (R312). -/
def execLdCH (s : State) : Result State :=
  commit 1 4 (s.set .c (s.get .h))

/-- `LD C,L` (R313). -/
def execLdCL (s : State) : Result State :=
  commit 1 4 (s.set .c (s.get .l))

/-- `LD C,A` (R314). -/
def execLdCA (s : State) : Result State :=
  commit 1 4 (s.set .c (s.get .a))

/-- `LD D,B` (R315). -/
def execLdDB (s : State) : Result State :=
  commit 1 4 (s.set .d (s.get .b))

/-- `LD D,C` (R316). -/
def execLdDC (s : State) : Result State :=
  commit 1 4 (s.set .d (s.get .c))

/-- `LD D,D` (R317). -/
def execLdDD (s : State) : Result State :=
  commit 1 4 (s.set .d (s.get .d))

/-- `LD D,E` (R318). -/
def execLdDE (s : State) : Result State :=
  commit 1 4 (s.set .d (s.get .e))

/-- `LD D,H` (R319). -/
def execLdDH (s : State) : Result State :=
  commit 1 4 (s.set .d (s.get .h))

/-- `LD D,L` (R320). -/
def execLdDL (s : State) : Result State :=
  commit 1 4 (s.set .d (s.get .l))

/-- `LD D,A` (R321). -/
def execLdDA (s : State) : Result State :=
  commit 1 4 (s.set .d (s.get .a))

/-- `LD E,B` (R322). -/
def execLdEB (s : State) : Result State :=
  commit 1 4 (s.set .e (s.get .b))

/-- `LD E,C` (R323). -/
def execLdEC (s : State) : Result State :=
  commit 1 4 (s.set .e (s.get .c))

/-- `LD E,D` (R324). -/
def execLdED (s : State) : Result State :=
  commit 1 4 (s.set .e (s.get .d))

/-- `LD E,E` (R325). -/
def execLdEE (s : State) : Result State :=
  commit 1 4 (s.set .e (s.get .e))

/-- `LD E,H` (R326). -/
def execLdEH (s : State) : Result State :=
  commit 1 4 (s.set .e (s.get .h))

/-- `LD E,L` (R327). -/
def execLdEL (s : State) : Result State :=
  commit 1 4 (s.set .e (s.get .l))

/-- `LD E,A` (R328). -/
def execLdEA (s : State) : Result State :=
  commit 1 4 (s.set .e (s.get .a))

/-- `LD H,B` (R329). -/
def execLdHB (s : State) : Result State :=
  commit 1 4 (s.set .h (s.get .b))

/-- `LD H,C` (R330). -/
def execLdHC (s : State) : Result State :=
  commit 1 4 (s.set .h (s.get .c))

/-- `LD H,D` (R331). -/
def execLdHD (s : State) : Result State :=
  commit 1 4 (s.set .h (s.get .d))

/-- `LD H,E` (R332). -/
def execLdHE (s : State) : Result State :=
  commit 1 4 (s.set .h (s.get .e))

/-- `LD H,H` (R333). -/
def execLdHH (s : State) : Result State :=
  commit 1 4 (s.set .h (s.get .h))

/-- `LD H,L` (R334). -/
def execLdHL (s : State) : Result State :=
  commit 1 4 (s.set .h (s.get .l))

/-- `LD H,A` (R335). -/
def execLdHA (s : State) : Result State :=
  commit 1 4 (s.set .h (s.get .a))

/-- `LD L,B` (R336). -/
def execLdLB (s : State) : Result State :=
  commit 1 4 (s.set .l (s.get .b))

/-- `LD L,C` (R337). -/
def execLdLC (s : State) : Result State :=
  commit 1 4 (s.set .l (s.get .c))

/-- `LD L,D` (R338). -/
def execLdLD (s : State) : Result State :=
  commit 1 4 (s.set .l (s.get .d))

/-- `LD L,E` (R339). -/
def execLdLE (s : State) : Result State :=
  commit 1 4 (s.set .l (s.get .e))

/-- `LD L,H` (R340). -/
def execLdLH (s : State) : Result State :=
  commit 1 4 (s.set .l (s.get .h))

/-- `LD L,L` (R341). -/
def execLdLL (s : State) : Result State :=
  commit 1 4 (s.set .l (s.get .l))

/-- `LD L,A` (R342). -/
def execLdLA (s : State) : Result State :=
  commit 1 4 (s.set .l (s.get .a))

/-- `LD A,B` (R343). -/
def execLdAB (s : State) : Result State :=
  commit 1 4 (s.set .a (s.get .b))

/-- `LD A,C` (R344). -/
def execLdAC (s : State) : Result State :=
  commit 1 4 (s.set .a (s.get .c))

/-- `LD A,D` (R345). -/
def execLdAD (s : State) : Result State :=
  commit 1 4 (s.set .a (s.get .d))

/-- `LD A,E` (R346). -/
def execLdAE (s : State) : Result State :=
  commit 1 4 (s.set .a (s.get .e))

/-- `LD A,H` (R347). -/
def execLdAH (s : State) : Result State :=
  commit 1 4 (s.set .a (s.get .h))

/-- `LD A,L` (R348). -/
def execLdAL (s : State) : Result State :=
  commit 1 4 (s.set .a (s.get .l))

/-- `LD A,A` (R349). -/
def execLdAA (s : State) : Result State :=
  commit 1 4 (s.set .a (s.get .a))

end Sys2Proof.Machine
end

