-- ==== Sys2Proof/Machine/Push.lean ====
section
/-! DEFINITION. PUSH: two single-byte pushes, the high byte first (43_push.md). -/

namespace Sys2Proof.Machine

/-! ### PUSH (43_push.md R550 to R565) -/

/-- `PUSH BC` (R551). -/
def execPushBC (s : State) : Result State :=
  pushPair s.b s.c 1 16 s

/-- `PUSH DE` (R552). -/
def execPushDE (s : State) : Result State :=
  pushPair s.d s.e 1 16 s

/-- `PUSH HL` (R553). -/
def execPushHL (s : State) : Result State :=
  pushPair s.h s.l 1 16 s

/-- `PUSH AF` (R565). -/
def execPushAF (s : State) : Result State :=
  pushPair s.a (flagsByte s.flags) 1 16 s

end Sys2Proof.Machine
end

