-- ==== Sys2Proof/Machine/Dispatch.lean ====
section
/-! DEFINITION. Which meaning each instruction has: one arm for each constructor of `Instr`. -/

namespace Sys2Proof.Machine

def exec (i : Instr) (s : State) : Host.Outcome State Fault Refusal :=
  match i with
  -- LD r,r' (41_load8.md R300 to R349)
  | .ldBB => Sys2Proof.Machine.execLdBB s
  | .ldBC => Sys2Proof.Machine.execLdBC s
  | .ldBD => Sys2Proof.Machine.execLdBD s
  | .ldBE => Sys2Proof.Machine.execLdBE s
  | .ldBH => Sys2Proof.Machine.execLdBH s
  | .ldBL => Sys2Proof.Machine.execLdBL s
  | .ldBA => Sys2Proof.Machine.execLdBA s
  | .ldCB => Sys2Proof.Machine.execLdCB s
  | .ldCC => Sys2Proof.Machine.execLdCC s
  | .ldCD => Sys2Proof.Machine.execLdCD s
  | .ldCE => Sys2Proof.Machine.execLdCE s
  | .ldCH => Sys2Proof.Machine.execLdCH s
  | .ldCL => Sys2Proof.Machine.execLdCL s
  | .ldCA => Sys2Proof.Machine.execLdCA s
  | .ldDB => Sys2Proof.Machine.execLdDB s
  | .ldDC => Sys2Proof.Machine.execLdDC s
  | .ldDD => Sys2Proof.Machine.execLdDD s
  | .ldDE => Sys2Proof.Machine.execLdDE s
  | .ldDH => Sys2Proof.Machine.execLdDH s
  | .ldDL => Sys2Proof.Machine.execLdDL s
  | .ldDA => Sys2Proof.Machine.execLdDA s
  | .ldEB => Sys2Proof.Machine.execLdEB s
  | .ldEC => Sys2Proof.Machine.execLdEC s
  | .ldED => Sys2Proof.Machine.execLdED s
  | .ldEE => Sys2Proof.Machine.execLdEE s
  | .ldEH => Sys2Proof.Machine.execLdEH s
  | .ldEL => Sys2Proof.Machine.execLdEL s
  | .ldEA => Sys2Proof.Machine.execLdEA s
  | .ldHB => Sys2Proof.Machine.execLdHB s
  | .ldHC => Sys2Proof.Machine.execLdHC s
  | .ldHD => Sys2Proof.Machine.execLdHD s
  | .ldHE => Sys2Proof.Machine.execLdHE s
  | .ldHH => Sys2Proof.Machine.execLdHH s
  | .ldHL => Sys2Proof.Machine.execLdHL s
  | .ldHA => Sys2Proof.Machine.execLdHA s
  | .ldLB => Sys2Proof.Machine.execLdLB s
  | .ldLC => Sys2Proof.Machine.execLdLC s
  | .ldLD => Sys2Proof.Machine.execLdLD s
  | .ldLE => Sys2Proof.Machine.execLdLE s
  | .ldLH => Sys2Proof.Machine.execLdLH s
  | .ldLL => Sys2Proof.Machine.execLdLL s
  | .ldLA => Sys2Proof.Machine.execLdLA s
  | .ldAB => Sys2Proof.Machine.execLdAB s
  | .ldAC => Sys2Proof.Machine.execLdAC s
  | .ldAD => Sys2Proof.Machine.execLdAD s
  | .ldAE => Sys2Proof.Machine.execLdAE s
  | .ldAH => Sys2Proof.Machine.execLdAH s
  | .ldAL => Sys2Proof.Machine.execLdAL s
  | .ldAA => Sys2Proof.Machine.execLdAA s
  -- LD r,n (41_load8.md R350 to R357)
  | .ldBN n => Sys2Proof.Machine.execLdBN n s
  | .ldCN n => Sys2Proof.Machine.execLdCN n s
  | .ldDN n => Sys2Proof.Machine.execLdDN n s
  | .ldEN n => Sys2Proof.Machine.execLdEN n s
  | .ldHN n => Sys2Proof.Machine.execLdHN n s
  | .ldLN n => Sys2Proof.Machine.execLdLN n s
  | .ldAN n => Sys2Proof.Machine.execLdAN n s
  -- LD r,(HL) (41_load8.md R360 to R367)
  | .ldBAtHL => Sys2Proof.Machine.execLdBAtHL s
  | .ldCAtHL => Sys2Proof.Machine.execLdCAtHL s
  | .ldDAtHL => Sys2Proof.Machine.execLdDAtHL s
  | .ldEAtHL => Sys2Proof.Machine.execLdEAtHL s
  | .ldHAtHL => Sys2Proof.Machine.execLdHAtHL s
  | .ldLAtHL => Sys2Proof.Machine.execLdLAtHL s
  | .ldAAtHL => Sys2Proof.Machine.execLdAAtHL s
  -- LD (HL),r (41_load8.md R360, R370 to R376)
  | .ldAtHLB => Sys2Proof.Machine.execLdAtHLB s
  | .ldAtHLC => Sys2Proof.Machine.execLdAtHLC s
  | .ldAtHLD => Sys2Proof.Machine.execLdAtHLD s
  | .ldAtHLE => Sys2Proof.Machine.execLdAtHLE s
  | .ldAtHLH => Sys2Proof.Machine.execLdAtHLH s
  | .ldAtHLL => Sys2Proof.Machine.execLdAtHLL s
  | .ldAtHLA => Sys2Proof.Machine.execLdAtHLA s
  -- LD (HL),n (41_load8.md R380)
  | .ldAtHLN n => Sys2Proof.Machine.execLdAtHLN n s
  -- A through (BC) and (DE) (41_load8.md R385 to R389)
  | .ldAtBCA => Sys2Proof.Machine.execLdAtBCA s
  | .ldAAtBC => Sys2Proof.Machine.execLdAAtBC s
  | .ldAtDEA => Sys2Proof.Machine.execLdAtDEA s
  | .ldAAtDE => Sys2Proof.Machine.execLdAAtDE s
  -- A through an absolute address (41_load8.md R390 to R392)
  | .ldAtNNA nn => Sys2Proof.Machine.execLdAtNNA nn s
  | .ldAAtNN nn => Sys2Proof.Machine.execLdAAtNN nn s
  -- the I/O window (41_load8.md R395 to R399)
  | .ldIoNA n => Sys2Proof.Machine.execLdIoNA n s
  | .ldIoCA => Sys2Proof.Machine.execLdIoCA s
  | .ldAIoN n => Sys2Proof.Machine.execLdAIoN n s
  | .ldAIoC => Sys2Proof.Machine.execLdAIoC s
  -- HL+ and HL- (41_load8.md R400 to R404)
  | .ldAtHLIncA => Sys2Proof.Machine.execLdAtHLIncA s
  | .ldAAtHLInc => Sys2Proof.Machine.execLdAAtHLInc s
  | .ldAtHLDecA => Sys2Proof.Machine.execLdAtHLDecA s
  | .ldAAtHLDec => Sys2Proof.Machine.execLdAAtHLDec s
  -- LD rr,nn (42_load16.md R500 to R504)
  | .ldBCNN nn => Sys2Proof.Machine.execLdBCNN nn s
  | .ldDENN nn => Sys2Proof.Machine.execLdDENN nn s
  | .ldHLNN nn => Sys2Proof.Machine.execLdHLNN nn s
  | .ldSPNN nn => Sys2Proof.Machine.execLdSPNN nn s
  -- LD SP,HL; LD HL,SP+n; LD (nn),SP (42_load16.md R510 to R515)
  | .ldSPHL => Sys2Proof.Machine.execLdSPHL s
  | .ldHLSPN n => Sys2Proof.Machine.execLdHLSPN n s
  | .ldAtNNSP nn => Sys2Proof.Machine.execLdAtNNSP nn s
  -- PUSH (43_push.md R550 to R565)
  | .pushBC => Sys2Proof.Machine.execPushBC s
  | .pushDE => Sys2Proof.Machine.execPushDE s
  | .pushHL => Sys2Proof.Machine.execPushHL s
  | .pushAF => Sys2Proof.Machine.execPushAF s

end Sys2Proof.Machine
end

