-- ==== Sys2Proof/Machine/Fetch.lean ====
section
/-! DEFINITION. Fetching and decoding the instruction at PC (40_step.md R201 to R204, R208, R211), and placing bytes where a fetch
finds them. -/

namespace Sys2Proof.Machine

/-- The operand fetches a format asks for, from the byte after the opcode (40_step.md R208; 30_encoding.md R152, R153). -/
def fetchOperands (form : Form) (s : State) : Result Instr :=
  match form with
  | .f1 i => .next i
  | .f2 mk => andThen (memRead (addrPlus s.params s.pc.toNat 1) s) fun n => .next (mk n)
  | .f3 mk => andThen (twoByteAddress (addrPlus s.params s.pc.toNat 1) s) fun nn => .next (mk nn)

/-- Look the opcode byte up in DECODE; a byte with no entry raises UnimplementedOpcode before any other access (40_step.md R203). -/
def fetchDecoded (op : Byte) (s : State) : Result Instr :=
  match rowOf op with
  | none => raiseUnimplementedOpcode op s
  | some r => fetchOperands r.form s

/-- The opcode fetch at PC0 (40_step.md R202), the decode and the operand fetches. -/
def fetchInstr (s : State) : Result Instr :=
  andThen (memRead s.pc.toNat s) fun op => fetchDecoded op s

/-- The address of byte `k` of the instruction at PC: PC0 itself, then `addr_plus(PC0, k)` (30_encoding.md R151). -/
def instrByteAddr (s : State) (k : Nat) : Nat :=
  match k with
  | 0 => s.pc.toNat
  | k + 1 => addrPlus s.params s.pc.toNat (k + 1)

/-- Put bytes at the addresses of bytes `k`, `k + 1`, … of the instruction at PC, skipping an address that does not exist. -/
def placeBytes : Nat → List Byte → State → State
  | _, [], s => s
  | k, v :: vs, s =>
    placeBytes (k + 1) vs
      (if instrByteAddr s k < s.params.memSize then s.setMem (s.mem.write (instrByteAddr s k) v) else s)

end Sys2Proof.Machine
end

