-- ==== Sys2Proof/Machine/Step.lean ====
section
/-! DEFINITION. One step: fetch, decode, execute (40_step.md R201). -/

namespace Sys2Proof.Machine

/-- One call of `step` (40_step.md R200, R201). The body of an instruction commits PC and cycles itself; a fault answers no state. -/
def step (s : State) : Host.Outcome State Fault Refusal := andThen (fetchInstr s) fun i => exec i s

/-- The state with an instruction of opcode_table.json, and zeros up to the longest instruction, stored at PC: what the host does when
it loads a program (70_reset_and_hazards.md R703, log entry 6). -/
def State.withFetchWord (s : State) (nbits w : Nat) : State := placeBytes 0 (tableBytes nbits w) s

end Sys2Proof.Machine
end

