-- ==== Sys2Proof/Machine/Driver.lean ====
section
/-! DEFINITION. The host's side (70_reset_and_hazards.md R708, 60_exceptions.md R605, R606): what the caller of `step` sees, and a run
as the list of what the host does. -/

namespace Sys2Proof.Machine

/-- Why a run is over. -/
inductive Stop where
  | fault (r : Fault)
  | refused (r : Refusal)
  deriving DecidableEq, Repr

/-- What the caller of `step` holds afterwards: the state, and the report if the call failed. -/
structure StepCall where
  state : State
  stop : Option Stop
  deriving DecidableEq, Repr

/-- The caller's view of an attempt from a state: on a fault the state is the one before it (40_step.md R207, 60_exceptions.md R605). -/
def viewOf (before : State) (r : Result State) : StepCall :=
  match r with
  | .next t => ⟨t, none⟩
  | .fault x => ⟨before, some (.fault x)⟩
  | .refused x => ⟨before, some (.refused x)⟩

/-- One call of `step`, as its caller sees it. -/
def callStep (s : State) : StepCall := viewOf s (step s)

/-- What the host, or another component, does between two steps (70_reset_and_hazards.md R700, R708, 20_memory.md R105). A read of memory
or registers is no action: it changes nothing (20_memory.md R110). No action replaces the memory alone: a CPU never outlives the memory it
was bound to (R700). -/
inductive DriverAction where
  /-- Call `step`. -/
  | step
  /-- Write a memory cell through the Memory Map. An address that does not exist fails as for the CORE (20_memory.md R102, log
  entry 5). -/
  | write (addr : Nat) (v : Byte)
  /-- Construct a new CPU bound to the same memory. -/
  | newCpu
  /-- Construct a new Memory Map, and a new CPU bound to it. -/
  | newMachine
  deriving DecidableEq, Repr

/-- The action goes on with the CPU there is. -/
def DriverAction.keepsCpu : DriverAction → Bool
  | .step => true
  | .write _ _ => true
  | .newCpu => false
  | .newMachine => false

/-- One action of the host. -/
def act : DriverAction → State → StepCall
  | .step, s => callStep s
  | .write addr v, s => viewOf s (memWrite addr v s)
  | .newCpu, s => viewOf s (.next s.newCpu)
  | .newMachine, s => viewOf s (.next s.newMachine)

/-- A run: the host's actions in order, stopping for good at the first failure (60_exceptions.md R606). A host that
resets after a failure starts another run, from `newCpu` or `newMachine` of the state this one ends in. -/
def runDriver : List DriverAction → State → StepCall
  | [], s => ⟨s, none⟩
  | x :: xs, s =>
    match (act x s).stop with
    | none => runDriver xs (act x s).state
    | some r => ⟨(act x s).state, some r⟩

end Sys2Proof.Machine
end

