-- ==== Sys2Proof/Machine/Footprint.lean ====
section
/-! DEFINITION. What each instruction touches, written from the instruction rules and beside the meanings, not from them: the
data reads and writes of 60_exceptions.md R603 in the order of 40_step.md R208, and the registers of 10_state.md R53. Statements
about every instruction at once compare `exec` with these. -/

namespace Sys2Proof.Machine

/-- The addresses of the data reads (60_exceptions.md R603). -/
def loadsOf (i : Instr) (s : State) : List Nat :=
  match i with
  | .ldBAtHL | .ldCAtHL | .ldDAtHL | .ldEAtHL | .ldHAtHL | .ldLAtHL | .ldAAtHL | .ldAAtHLInc | .ldAAtHLDec => [(hlAddress s).toNat]
  | .ldAAtBC => [(bcAddress s).toNat]
  | .ldAAtDE => [(deAddress s).toNat]
  | .ldAAtNN nn => [nn.toNat]
  | .ldAIoN n => [(ioAddress n).toNat]
  | .ldAIoC => [(ioAddress s.c).toNat]
  | .ldBB | .ldBC | .ldBD | .ldBE | .ldBH | .ldBL | .ldBA | .ldCB | .ldCC | .ldCD | .ldCE | .ldCH | .ldCL | .ldCA
  | .ldDB | .ldDC | .ldDD | .ldDE | .ldDH | .ldDL | .ldDA | .ldEB | .ldEC | .ldED | .ldEE | .ldEH | .ldEL | .ldEA
  | .ldHB | .ldHC | .ldHD | .ldHE | .ldHH | .ldHL | .ldHA | .ldLB | .ldLC | .ldLD | .ldLE | .ldLH | .ldLL | .ldLA
  | .ldAB | .ldAC | .ldAD | .ldAE | .ldAH | .ldAL | .ldAA | .ldBN _ | .ldCN _ | .ldDN _ | .ldEN _ | .ldHN _ | .ldLN _
  | .ldAN _ | .ldAtHLB | .ldAtHLC | .ldAtHLD | .ldAtHLE | .ldAtHLH | .ldAtHLL | .ldAtHLA | .ldAtHLN _ | .ldAtBCA
  | .ldAtDEA | .ldAtNNA _ | .ldIoNA _ | .ldIoCA | .ldAtHLIncA | .ldAtHLDecA | .ldBCNN _ | .ldDENN _ | .ldHLNN _
  | .ldSPNN _ | .ldSPHL | .ldHLSPN _ | .ldAtNNSP _ | .pushBC | .pushDE | .pushHL | .pushAF => []

/-- The data writes, address and byte, in the order the instruction rule lists them (60_exceptions.md R603). -/
def storesOf (i : Instr) (s : State) : List (Nat × Byte) :=
  match i with
  | .ldAtHLB => [((hlAddress s).toNat, s.b)]
  | .ldAtHLC => [((hlAddress s).toNat, s.c)]
  | .ldAtHLD => [((hlAddress s).toNat, s.d)]
  | .ldAtHLE => [((hlAddress s).toNat, s.e)]
  | .ldAtHLH => [((hlAddress s).toNat, s.h)]
  | .ldAtHLL => [((hlAddress s).toNat, s.l)]
  | .ldAtHLA | .ldAtHLIncA | .ldAtHLDecA => [((hlAddress s).toNat, s.a)]
  | .ldAtHLN n => [((hlAddress s).toNat, n)]
  | .ldAtBCA => [((bcAddress s).toNat, s.a)]
  | .ldAtDEA => [((deAddress s).toNat, s.a)]
  | .ldAtNNA nn => [(nn.toNat, s.a)]
  | .ldIoNA n => [((ioAddress n).toNat, s.a)]
  | .ldIoCA => [((ioAddress s.c).toNat, s.a)]
  | .ldAtNNSP nn => [(nn.toNat, loByte s.sp), (addrPlus s.params nn.toNat 1, hiByte s.sp)]
  | .pushBC => [((s.sp - 1#16).toNat, s.b), ((s.sp - 2#16).toNat, s.c)]
  | .pushDE => [((s.sp - 1#16).toNat, s.d), ((s.sp - 2#16).toNat, s.e)]
  | .pushHL => [((s.sp - 1#16).toNat, s.h), ((s.sp - 2#16).toNat, s.l)]
  | .pushAF => [((s.sp - 1#16).toNat, s.a), ((s.sp - 2#16).toNat, flagsByte s.flags)]
  | .ldBB | .ldBC | .ldBD | .ldBE | .ldBH | .ldBL | .ldBA | .ldCB | .ldCC | .ldCD | .ldCE | .ldCH | .ldCL | .ldCA
  | .ldDB | .ldDC | .ldDD | .ldDE | .ldDH | .ldDL | .ldDA | .ldEB | .ldEC | .ldED | .ldEE | .ldEH | .ldEL | .ldEA
  | .ldHB | .ldHC | .ldHD | .ldHE | .ldHH | .ldHL | .ldHA | .ldLB | .ldLC | .ldLD | .ldLE | .ldLH | .ldLL | .ldLA
  | .ldAB | .ldAC | .ldAD | .ldAE | .ldAH | .ldAL | .ldAA | .ldBN _ | .ldCN _ | .ldDN _ | .ldEN _ | .ldHN _ | .ldLN _
  | .ldAN _ | .ldBAtHL | .ldCAtHL | .ldDAtHL | .ldEAtHL | .ldHAtHL | .ldLAtHL | .ldAAtHL | .ldAAtBC | .ldAAtDE
  | .ldAAtNN _ | .ldAIoN _ | .ldAIoC | .ldAAtHLInc | .ldAAtHLDec | .ldBCNN _ | .ldDENN _ | .ldHLNN _ | .ldSPNN _
  | .ldSPHL | .ldHLSPN _ => []

/-- The addresses of the data writes, in order. -/
def storeAddrs (i : Instr) (s : State) : List Nat := (storesOf i s).map Prod.fst

/-- The addresses of all data accesses, in order: reads before writes (40_step.md R208). -/
def dataAddrs (i : Instr) (s : State) : List Nat := loadsOf i s ++ storeAddrs i s

/-- The byte registers an instruction writes (10_state.md R53). -/
def destRegs (i : Instr) : List Reg :=
  match i with
  | .ldBB | .ldBC | .ldBD | .ldBE | .ldBH | .ldBL | .ldBA | .ldBN _ | .ldBAtHL => [.b]
  | .ldCB | .ldCC | .ldCD | .ldCE | .ldCH | .ldCL | .ldCA | .ldCN _ | .ldCAtHL => [.c]
  | .ldDB | .ldDC | .ldDD | .ldDE | .ldDH | .ldDL | .ldDA | .ldDN _ | .ldDAtHL => [.d]
  | .ldEB | .ldEC | .ldED | .ldEE | .ldEH | .ldEL | .ldEA | .ldEN _ | .ldEAtHL => [.e]
  | .ldHB | .ldHC | .ldHD | .ldHE | .ldHH | .ldHL | .ldHA | .ldHN _ | .ldHAtHL => [.h]
  | .ldLB | .ldLC | .ldLD | .ldLE | .ldLH | .ldLL | .ldLA | .ldLN _ | .ldLAtHL => [.l]
  | .ldAB | .ldAC | .ldAD | .ldAE | .ldAH | .ldAL | .ldAA | .ldAN _ | .ldAAtHL | .ldAAtBC | .ldAAtDE | .ldAAtNN _
  | .ldAIoN _ | .ldAIoC => [.a]
  | .ldAtHLIncA | .ldAtHLDecA | .ldHLNN _ | .ldHLSPN _ => [.h, .l]
  | .ldAAtHLInc | .ldAAtHLDec => [.a, .h, .l]
  | .ldBCNN _ => [.b, .c]
  | .ldDENN _ => [.d, .e]
  | .ldAtHLB | .ldAtHLC | .ldAtHLD | .ldAtHLE | .ldAtHLH | .ldAtHLL | .ldAtHLA | .ldAtHLN _ | .ldAtBCA | .ldAtDEA
  | .ldAtNNA _ | .ldIoNA _ | .ldIoCA | .ldSPNN _ | .ldSPHL | .ldAtNNSP _ | .pushBC | .pushDE | .pushHL | .pushAF => []

/-- The instruction writes SP (10_state.md R53, R57). -/
def writesSp (i : Instr) : Bool :=
  match i with
  | .ldSPNN _ | .ldSPHL | .pushBC | .pushDE | .pushHL | .pushAF => true
  | .ldBB | .ldBC | .ldBD | .ldBE | .ldBH | .ldBL | .ldBA | .ldCB | .ldCC | .ldCD | .ldCE | .ldCH | .ldCL | .ldCA
  | .ldDB | .ldDC | .ldDD | .ldDE | .ldDH | .ldDL | .ldDA | .ldEB | .ldEC | .ldED | .ldEE | .ldEH | .ldEL | .ldEA
  | .ldHB | .ldHC | .ldHD | .ldHE | .ldHH | .ldHL | .ldHA | .ldLB | .ldLC | .ldLD | .ldLE | .ldLH | .ldLL | .ldLA
  | .ldAB | .ldAC | .ldAD | .ldAE | .ldAH | .ldAL | .ldAA | .ldBN _ | .ldCN _ | .ldDN _ | .ldEN _ | .ldHN _ | .ldLN _
  | .ldAN _ | .ldBAtHL | .ldCAtHL | .ldDAtHL | .ldEAtHL | .ldHAtHL | .ldLAtHL | .ldAAtHL | .ldAtHLB | .ldAtHLC
  | .ldAtHLD | .ldAtHLE | .ldAtHLH | .ldAtHLL | .ldAtHLA | .ldAtHLN _ | .ldAtBCA | .ldAAtBC | .ldAtDEA | .ldAAtDE
  | .ldAtNNA _ | .ldAAtNN _ | .ldIoNA _ | .ldIoCA | .ldAIoN _ | .ldAIoC | .ldAtHLIncA | .ldAAtHLInc | .ldAtHLDecA
  | .ldAAtHLDec | .ldBCNN _ | .ldDENN _ | .ldHLNN _ | .ldHLSPN _ | .ldAtNNSP _ => false

/-- The instruction writes the flags (10_state.md R55). -/
def writesFlags (i : Instr) : Bool :=
  match i with
  | .ldHLSPN _ => true
  | .ldBB | .ldBC | .ldBD | .ldBE | .ldBH | .ldBL | .ldBA | .ldCB | .ldCC | .ldCD | .ldCE | .ldCH | .ldCL | .ldCA
  | .ldDB | .ldDC | .ldDD | .ldDE | .ldDH | .ldDL | .ldDA | .ldEB | .ldEC | .ldED | .ldEE | .ldEH | .ldEL | .ldEA
  | .ldHB | .ldHC | .ldHD | .ldHE | .ldHH | .ldHL | .ldHA | .ldLB | .ldLC | .ldLD | .ldLE | .ldLH | .ldLL | .ldLA
  | .ldAB | .ldAC | .ldAD | .ldAE | .ldAH | .ldAL | .ldAA | .ldBN _ | .ldCN _ | .ldDN _ | .ldEN _ | .ldHN _ | .ldLN _
  | .ldAN _ | .ldBAtHL | .ldCAtHL | .ldDAtHL | .ldEAtHL | .ldHAtHL | .ldLAtHL | .ldAAtHL | .ldAtHLB | .ldAtHLC
  | .ldAtHLD | .ldAtHLE | .ldAtHLH | .ldAtHLL | .ldAtHLA | .ldAtHLN _ | .ldAtBCA | .ldAAtBC | .ldAtDEA | .ldAAtDE
  | .ldAtNNA _ | .ldAAtNN _ | .ldIoNA _ | .ldIoCA | .ldAIoN _ | .ldAIoC | .ldAtHLIncA | .ldAAtHLInc | .ldAtHLDecA
  | .ldAAtHLDec | .ldBCNN _ | .ldDENN _ | .ldHLNN _ | .ldSPNN _ | .ldSPHL | .ldAtNNSP _ | .pushBC | .pushDE | .pushHL
  | .pushAF => false

end Sys2Proof.Machine
end

