-- ==== Sys2Proof/WellFormed.lean ====
section
/-! DEFINITION. Well-formedness. Every term of `Instr` is well-formed, because its operand fields have exactly the widths
of the encoding (30_encoding.md R152, R153). What can be ill-formed is a choice of parameters (00_scope.md R8) and a list of bytes that is
meant to be one instruction (30_encoding.md R150, R157). The lists of bytes below are written from R151, R155 and R157 and not from the
decoder, so that the two can be held against each other. -/

namespace Sys2Proof

/-- `1 ≤ MEM_SIZE` (20_memory.md R104). -/
def Params.memSizePositive (p : Params) : Bool := decide (1 ≤ p.memSize)

/-- `MEM_SIZE ≤ 65536` (20_memory.md R104). -/
def Params.memSizeFits (p : Params) : Bool := decide (p.memSize ≤ 65536)

/-- `CYCLE_WIDTH ≥ 32`, where an implementation's width is named (00_scope.md R8). -/
def Params.cycleWidthLegal (p : Params) : Bool :=
  match p.cycleWidth with
  | none => true
  | some w => decide (32 ≤ w)

/-- The parameters have legal values (00_scope.md R8). -/
def Params.wf (p : Params) : Bool := p.memSizePositive && p.memSizeFits && p.cycleWidthLegal

/-- Bytes 1 to 40 of the list of 30_encoding.md R157. -/
def illegalOpcodes0 : List Byte :=
  [ 0x00#8, 0x03#8, 0x04#8, 0x05#8, 0x07#8, 0x09#8, 0x0B#8, 0x0C#8, 0x0D#8, 0x0F#8
  , 0x10#8, 0x13#8, 0x14#8, 0x15#8, 0x17#8, 0x18#8, 0x19#8, 0x1B#8, 0x1C#8, 0x1D#8
  , 0x1F#8, 0x20#8, 0x23#8, 0x24#8, 0x25#8, 0x27#8, 0x28#8, 0x29#8, 0x2B#8, 0x2C#8
  , 0x2D#8, 0x2F#8, 0x30#8, 0x33#8, 0x34#8, 0x35#8, 0x37#8, 0x38#8, 0x39#8, 0x3B#8 ]

/-- Bytes 41 to 80 of the list of 30_encoding.md R157. -/
def illegalOpcodes1 : List Byte :=
  [ 0x3C#8, 0x3D#8, 0x3F#8, 0x76#8, 0x80#8, 0x81#8, 0x82#8, 0x83#8, 0x84#8, 0x85#8
  , 0x86#8, 0x87#8, 0x88#8, 0x89#8, 0x8A#8, 0x8B#8, 0x8C#8, 0x8D#8, 0x8E#8, 0x8F#8
  , 0x90#8, 0x91#8, 0x92#8, 0x93#8, 0x94#8, 0x95#8, 0x96#8, 0x97#8, 0x98#8, 0x99#8
  , 0x9A#8, 0x9B#8, 0x9C#8, 0x9D#8, 0x9E#8, 0x9F#8, 0xA0#8, 0xA1#8, 0xA2#8, 0xA3#8 ]

/-- Bytes 81 to 120 of the list of 30_encoding.md R157. -/
def illegalOpcodes2 : List Byte :=
  [ 0xA4#8, 0xA5#8, 0xA6#8, 0xA7#8, 0xA8#8, 0xA9#8, 0xAA#8, 0xAB#8, 0xAC#8, 0xAD#8
  , 0xAE#8, 0xAF#8, 0xB0#8, 0xB1#8, 0xB2#8, 0xB3#8, 0xB4#8, 0xB5#8, 0xB6#8, 0xB7#8
  , 0xB8#8, 0xB9#8, 0xBA#8, 0xBB#8, 0xBC#8, 0xBD#8, 0xBE#8, 0xBF#8, 0xC0#8, 0xC1#8
  , 0xC2#8, 0xC3#8, 0xC4#8, 0xC6#8, 0xC7#8, 0xC8#8, 0xC9#8, 0xCA#8, 0xCB#8, 0xCC#8 ]

/-- Bytes 121 to 160 of the list of 30_encoding.md R157. -/
def illegalOpcodes3 : List Byte :=
  [ 0xCD#8, 0xCE#8, 0xCF#8, 0xD0#8, 0xD1#8, 0xD2#8, 0xD3#8, 0xD4#8, 0xD6#8, 0xD7#8
  , 0xD8#8, 0xD9#8, 0xDA#8, 0xDB#8, 0xDC#8, 0xDD#8, 0xDE#8, 0xDF#8, 0xE1#8, 0xE3#8
  , 0xE4#8, 0xE6#8, 0xE7#8, 0xE8#8, 0xE9#8, 0xEB#8, 0xEC#8, 0xED#8, 0xEE#8, 0xEF#8
  , 0xF1#8, 0xF3#8, 0xF4#8, 0xF6#8, 0xF7#8, 0xFB#8, 0xFC#8, 0xFD#8, 0xFE#8, 0xFF#8 ]

/-- The 160 illegal bytes (30_encoding.md R157). -/
def illegalOpcodes : List Byte :=
  illegalOpcodes0 ++ illegalOpcodes1 ++ illegalOpcodes2 ++ illegalOpcodes3

/-- The opcodes of length 2 (30_encoding.md R155). -/
def twoByteOpcodes : List Byte :=
  [ 0x06#8, 0x0E#8, 0x16#8, 0x1E#8, 0x26#8, 0x2E#8, 0x3E#8, 0x36#8, 0xF0#8, 0xE0#8
  , 0xF8#8 ]

/-- The opcodes of length 3 (30_encoding.md R155). -/
def threeByteOpcodes : List Byte :=
  [ 0xFA#8, 0xEA#8, 0x01#8, 0x11#8, 0x21#8, 0x31#8, 0x08#8 ]

/-- The length an opcode byte alone gives (30_encoding.md R150), for a legal opcode. -/
def opcodeLength (op : Byte) : Nat :=
  if op ∈ threeByteOpcodes then 3 else if op ∈ twoByteOpcodes then 2 else 1

/-- The byte is an opcode of this block (30_encoding.md R157, R158). -/
def legalOpcode (op : Byte) : Bool := decide (op ∉ illegalOpcodes)

/-- The bytes are exactly one instruction: an opcode of this block and as many operand bytes as its length asks for
(30_encoding.md R150, R151). -/
def wellFormedBytes : List Byte → Bool
  | [] => false
  | op :: operands => legalOpcode op && decide (operands.length + 1 = opcodeLength op)

end Sys2Proof
end

