-- ==== Sys2Proof/Safety.lean ====
section
/-! DEFINITION. The invariant of the machine, and what a safe run is. -/

namespace Sys2Proof.Machine

/-- The states that construction with legal parameters and steps can give: legal parameters (00_scope.md R8), a canonical memory, and no
cell at an address of MEM_SIZE or more (20_memory.md R100). -/
def State.Inv (s : State) : Prop :=
  s.params.wf = true ∧ s.mem.wf = true ∧ s.mem.below s.params.memSize = true

/-- An implementation's cycle counter has not overflowed (10_state.md R58, log entry 3). -/
def State.cyclesFit (s : State) : Prop :=
  match s.params.cycleWidth with
  | none => True
  | some w => s.cycles < 2 ^ w

/-- `k` steps that all commit, and after each the implementation's cycle counter still fits. -/
def SafeRun : Nat → State → Prop
  | 0, s => s.cyclesFit
  | k + 1, s => s.cyclesFit ∧ ∃ t, step s = .next t ∧ SafeRun k t

end Sys2Proof.Machine
end

