-- ==== Sys2Proof/Certificates/Slice0/Obligations.lean ====
section
/-! DEFINITION. The statements for the provers. -/

namespace Sys2Proof.Claims

open Sys2Proof.Machine

/-- From `s` to `t`: every byte register outside `regs` is unchanged, every memory byte outside `stored` reads as before, the
parameters are unchanged, and PC and the cycle counter move on by the instruction's length and cost. -/
structure Frame (regs : List Reg) (stored : List Nat) (len cost : Nat) (s t : State) : Prop where
  regs : ∀ r, r ∉ regs → t.get r = s.get r
  bytes : ∀ a, a ∉ stored → t.peek a = s.peek a
  params : t.params = s.params
  pc : t.pc = s.pc + BitVec.ofNat 16 len
  cycles : t.cycles = s.cycles + cost

/-- A frame in which SP and the flags are unchanged as well. -/
structure PlainFrame (regs : List Reg) (stored : List Nat) (len cost : Nat) (s t : State) : Prop extends
    Frame regs stored len cost s t where
  sp : t.sp = s.sp
  flags : t.flags = s.flags

/-- The bytes at PC are those of an instruction, each at an address that exists. -/
def BytesAtPc (i : Instr) (s : State) : Prop :=
  ∀ k v, (encode i)[k]? = some v → instrByteAddr s k < s.params.memSize ∧ s.peek (instrByteAddr s k) = v

/-- The bytes left by data writes made in order: the last write to a cell is what it reads. -/
def peekAfter (before : Nat → Byte) : List (Nat × Byte) → Nat → Byte
  | [], x => before x
  | (a, v) :: ws, x => peekAfter (fun y => if y = a then v else before y) ws x

/-- The first address of a list that does not exist in a memory of `size` bytes. -/
def firstOutOfRange (size : Nat) (addrs : List Nat) : Option Nat := addrs.find? fun a => decide (size ≤ a)

/-- The per-class cycle costs, in the order of the table of 70_reset_and_hazards.md R707. -/
def costsOfClasses : List (Nat × (Instr → Prop)) :=
  [ (4, fun i => ∃ dst src, i = .ldRR dst src)
  , (8, fun i => ∃ dst n, i = .ldRN dst n)
  , (8, fun i => ∃ dst, i = .ldRAtHL dst)
  , (8, fun i => ∃ src, i = .ldAtHLR src)
  , (12, fun i => ∃ n, i = .ldAtHLN n)
  , (8, fun i => i = .ldAAtBC ∨ i = .ldAAtDE ∨ i = .ldAtBCA ∨ i = .ldAtDEA)
  , (16, fun i => ∃ nn, i = .ldAAtNN nn ∨ i = .ldAtNNA nn)
  , (8, fun i => i = .ldAIoC ∨ i = .ldIoCA)
  , (12, fun i => ∃ n, i = .ldAIoN n ∨ i = .ldIoNA n)
  , (8, fun i => i = .ldAAtHLInc ∨ i = .ldAtHLIncA ∨ i = .ldAAtHLDec ∨ i = .ldAtHLDecA)
  , (12, fun i => ∃ nn, i = .ldBCNN nn ∨ i = .ldDENN nn ∨ i = .ldHLNN nn ∨ i = .ldSPNN nn)
  , (8, fun i => i = .ldSPHL)
  , (12, fun i => ∃ n, i = .ldHLSPN n)
  , (20, fun i => ∃ nn, i = .ldAtNNSP nn)
  , (16, fun i => i = .pushBC ∨ i = .pushDE ∨ i = .pushHL ∨ i = .pushAF) ]

/-- The register pairs with an immediate load, as LD rr,nn and its two registers. -/
def pairLoads : List ((Word → Instr) × Reg × Reg) := [(.ldBCNN, .b, .c), (.ldDENN, .d, .e), (.ldHLNN, .h, .l)]

end Sys2Proof.Claims

open Sys2Proof Sys2Proof.Machine Sys2Proof.Claims

/-! ### Reset, memory and the registers -/

/-- R62: after construction, which is the only reset, every register, flag, the cycle counter and every memory cell is zero, whatever
the parameters. -/
def Obligations.ResetLeavesEverythingZero : Prop :=
  State.reset = State.construct Params.default ∧
    ∀ p : Params,
      (∀ r, (State.construct p).get r = 0x00#8) ∧ (State.construct p).pc = 0x0000#16 ∧ (State.construct p).sp = 0x0000#16 ∧
        (State.construct p).flags = ⟨false, false, false, false⟩ ∧ (State.construct p).cycles = 0 ∧
        ∀ a, (State.construct p).peek a = 0x00#8

/-- The invariant holds at reset, and after construction with any legal parameters. -/
def Obligations.ConstructionMeetsInvariant : Prop :=
  State.reset.Inv ∧ ∀ p : Params, p.wf = true → (State.construct p).Inv

/-- The first step on a memory that the host has not loaded faults on the byte 0x00 at PC 0x0000 (70_reset_and_hazards.md, section 2, a
rule the spec marks as derived: "The first step after reset on memory the host has not loaded fetches 0x00"). -/
def Obligations.UnloadedMachineFaultsAtOnce : Prop :=
  step State.reset = .fault (.unimplementedOpcode 0x00#8 0x0000#16)

/-- R101: `read` returns the byte at the address, and fails with OutOfRangeAddress exactly when the address is not below MEM_SIZE. -/
def Obligations.MemoryReadContract : Prop :=
  ∀ (a : Nat) (s : State),
    (a < s.params.memSize → memRead a s = .next (s.peek a)) ∧
      (s.params.memSize ≤ a → memRead a s = .fault (.outOfRangeAddress a s.pc))

/-- `write` stores the byte, replacing what was there, and changes nothing else; it fails under the same out-of-range condition as `read`
(20_memory.md, section 1). The byte stored reads back in every canonical memory. That the memory has a canonical form, which a write keeps,
is the model's own choice (log entry 13). -/
def Obligations.MemoryWriteContract : Prop :=
  ∀ (a : Nat) (v : Byte) (s : State),
    (a < s.params.memSize →
      ∃ t, memWrite a v s = .next t ∧ (∀ x, x ≠ a → t.peek x = s.peek x) ∧ { t with mem := s.mem } = s ∧
        (s.mem.wf = true → t.peek a = v ∧ t.mem.wf = true)) ∧
      (s.params.memSize ≤ a → memWrite a v s = .fault (.outOfRangeAddress a s.pc))

/-- Canonical memories that show the same bytes are the same data: the model's own form of memory loses nothing and adds nothing
(20_memory.md, section 1). -/
def Obligations.CanonicalMemoryIsUnique : Prop :=
  ∀ m₁ m₂ : Memory, m₁.wf = true → m₂.wf = true → (∀ a, m₁.read a = m₂.read a) → m₁ = m₂

/-- R51: a pair reads as `hi × 256 + lo`; writing a pair writes the high byte to the first-named register and the low byte to the second,
and changes nothing else in the state; and writing a byte register changes the pair's value. -/
def Obligations.RegisterPairsAreViews : Prop :=
  ∀ (s : State) (hi lo : Reg), (hi, lo) ∈ [(Reg.b, Reg.c), (Reg.d, Reg.e), (Reg.h, Reg.l)] →
    ((s.getPair hi lo).toNat = (s.get hi).toNat * 256 + (s.get lo).toNat) ∧
    (∀ v : Word, ((s.setPair hi lo v).get hi).toNat = v.toNat / 256 ∧ ((s.setPair hi lo v).get lo).toNat = v.toNat % 256 ∧
      (s.setPair hi lo v).getPair hi lo = v ∧ (∀ r, r ≠ hi → r ≠ lo → (s.setPair hi lo v).get r = s.get r) ∧
      ∀ x y : Byte, ((s.setPair hi lo v).set hi x).set lo y = (s.set hi x).set lo y) ∧
    (∀ v : Byte, ((s.set hi v).getPair hi lo).toNat = v.toNat * 256 + (s.get lo).toNat ∧
      ((s.set lo v).getPair hi lo).toNat = (s.get hi).toNat * 256 + v.toNat)

/-! ### Helpers -/

/-- R209: the three pair addresses are `high × 256 + low`. -/
def Obligations.PairAddressIsHighTimes256PlusLow : Prop :=
  ∀ s : State, (hlAddress s).toNat = s.h.toNat * 256 + s.l.toNat ∧ (bcAddress s).toNat = s.b.toNat * 256 + s.c.toNat ∧
    (deAddress s).toNat = s.d.toNat * 256 + s.e.toNat

/-- R210: `increment_hl` and `decrement_hl` add and subtract 1 modulo 2^16, change H and L only, and are mutual inverses. -/
def Obligations.HlIncrementDecrement : Prop :=
  ∀ s : State,
    (hlAddress (incrementHl s)).toNat = ((hlAddress s).toNat + 1) % 65536 ∧
    (hlAddress (decrementHl s)).toNat = ((hlAddress s).toNat + 65535) % 65536 ∧
    incrementHl (decrementHl s) = s ∧ decrementHl (incrementHl s) = s ∧
    (∀ v w : Byte, { incrementHl s with h := v, l := w } = { s with h := v, l := w } ∧
      { decrementHl s with h := v, l := w } = { s with h := v, l := w })

/-- R211: `two_byte_address(base)` reads `base` and then the byte after it, the low byte first, faults at the first of the two that
does not exist, and gives back a value stored low byte first; and the operand fetch of a 16-bit immediate or absolute address is it, at
the byte after the opcode. -/
def Obligations.TwoByteAddressIsLittleEndian : Prop :=
  ∀ (s : State) (base : Nat),
    (base < s.params.memSize → addrPlus s.params base 1 < s.params.memSize →
      (∃ v : Word, twoByteAddress base s = .next v ∧
        v.toNat = (s.peek (addrPlus s.params base 1)).toNat * 256 + (s.peek base).toNat) ∧
      (∀ v : Word, s.mem.wf = true → base < 65536 →
        andThen (memWrite base (loByte v) s) (fun s₁ =>
          andThen (memWrite (addrPlus s.params base 1) (hiByte v) s₁) (twoByteAddress base)) = .next v)) ∧
    (s.params.memSize ≤ base → twoByteAddress base s = .fault (.outOfRangeAddress base s.pc)) ∧
    (base < s.params.memSize → s.params.memSize ≤ addrPlus s.params base 1 →
      twoByteAddress base s = .fault (.outOfRangeAddress (addrPlus s.params base 1) s.pc)) ∧
    (∀ mk : Word → Instr,
      fetchOperands (.f3 mk) s = andThen (twoByteAddress (addrPlus s.params s.pc.toNat 1) s) fun nn => .next (mk nn))

/-- R212 and R214: the four direct flag sets; C from a wide result against 0xFF or 0xFFFF. Each changes its own flag and nothing else. So
does the zero helper, which takes Z from the low 8 bits of a result (40_step.md, section 3). -/
def Obligations.FlagHelpersChangeOneFlag : Prop :=
  ∀ (s : State) (result : Int),
    setZeroFlag s = { s with flags := ⟨true, s.flags.n, s.flags.h, s.flags.c⟩ } ∧
    clearZeroFlag s = { s with flags := ⟨false, s.flags.n, s.flags.h, s.flags.c⟩ } ∧
    setSubtractFlag s = { s with flags := ⟨s.flags.z, true, s.flags.h, s.flags.c⟩ } ∧
    clearSubtractFlag s = { s with flags := ⟨s.flags.z, false, s.flags.h, s.flags.c⟩ } ∧
    adjustZeroFlag result s = { s with flags := ⟨decide (result % 256 = 0), s.flags.n, s.flags.h, s.flags.c⟩ } ∧
    adjustCarryFlag result .w8 s = { s with flags := ⟨s.flags.z, s.flags.n, s.flags.h, decide (0xFF < result)⟩ } ∧
    adjustCarryFlag result .w16 s = { s with flags := ⟨s.flags.z, s.flags.n, s.flags.h, decide (0xFFFF < result)⟩ }

/-- R215: H is set exactly when bit 3 of the input byte and bit 4 of the result are, for negative results too; nothing else changes. -/
def Obligations.HalfCarryHeuristic : Prop :=
  ∀ (s : State) (orig : Byte) (result : Int),
    adjustHalfCarryFlag orig result s =
      { s with flags := ⟨s.flags.z, s.flags.n,
          decide (orig.toNat / 8 % 2 = 1 ∧ result / 16 % 2 = 1), s.flags.c⟩ }

/-- The I/O window's addresses are 0xFF00 plus the unsigned offset, and never exceed 0xFFFF (41_load8.md, section 7). -/
def Obligations.IoWindowAddress : Prop :=
  ∀ offset : Byte, (ioAddress offset).toNat = 0xFF00 + offset.toNat ∧ (ioAddress offset).toNat ≤ 0xFFFF

/-- `push_to_stack`: SP is decremented with 16-bit wrap (the spec's own decision D8: "SP <- wrap16(SP - 1)"), and the byte is written
at the new SP; a missing address faults with that address. -/
def Obligations.PushToStackDecrementsThenWrites : Prop :=
  ∀ (v : Byte) (s : State),
    ((s.sp - 1#16).toNat < s.params.memSize →
      ∃ t, pushToStack v s = .next t ∧ t.sp.toNat = (s.sp.toNat + 65535) % 65536 ∧
        (∀ x, x ≠ t.sp.toNat → t.peek x = s.peek x) ∧ { t with sp := s.sp, mem := s.mem } = s ∧
        (s.mem.wf = true → t.peek t.sp.toNat = v)) ∧
    (s.params.memSize ≤ (s.sp - 1#16).toNat →
      pushToStack v s = .fault (.outOfRangeAddress (s.sp - 1#16).toNat s.pc))

/-- `flags_byte()`: bit 7 is Z, bit 6 N, bit 5 H, and C sets bits 3 and 0 (0x09); no other bit is ever set. The masks of Z, N and H are
the spec's own decision D4 (43_push.md, section 2). -/
def Obligations.FlagsByteMasks : Prop :=
  ∀ (fl : Flags) (k : Nat), (flagsByte fl).getLsbD k =
    ((k == 7 && fl.z) || (k == 6 && fl.n) || (k == 5 && fl.h) || ((k == 3 || k == 0) && fl.c))

/-! ### Encoding -/

/-- Decoding the encoding of an instruction, whatever follows it, gives the instruction back with every operand, and what follows. -/
def Obligations.DecodeOfEncode : Prop :=
  ∀ (i : Instr) (rest : List Byte), decode (encode i ++ rest) = .ok (i, rest)

/-- Bytes that decode are the encoding of what they decode to, followed by what is left: no two encodings mean one instruction. -/
def Obligations.DecodedBytesAreTheEncoding : Prop :=
  ∀ (bs rest : List Byte) (i : Instr), decode bs = .ok (i, rest) → bs = encode i ++ rest

/-- The decoder rejects exactly the 160 listed bytes, by name, whatever follows them (30_encoding.md, section 4; which bytes they are rests on
the spec's decisions D1 and D2). -/
def Obligations.ExactlyTheListedBytesAreIllegal : Prop :=
  (∀ (op : Byte) (rest : List Byte), op ∈ illegalOpcodes ↔ decode (op :: rest) = .error (.unimplemented op)) ∧
    illegalOpcodes.length = 160 ∧ illegalOpcodes.Nodup

/-- R150: an instruction is 1, 2 or 3 bytes long, its first byte is the opcode, and the opcode alone gives the length: two byte lists that
start with the same byte decode to instructions of one length, and each takes exactly that many bytes. -/
def Obligations.OpcodeAloneGivesTheLength : Prop :=
  (∀ i : Instr, (encode i).length ∈ [1, 2, 3] ∧ i.length = (encode i).length ∧ (encode i).head? = some i.opcode) ∧
    (∀ (i j : Instr), (encode i).head? = (encode j).head? → (encode i).length = (encode j).length) ∧
    ∀ (op : Byte) (bs cs bs' cs' : List Byte) (i j : Instr), decode (op :: bs) = .ok (i, bs') → decode (op :: cs) = .ok (j, cs') →
      i.opcode = op ∧ i.length = j.length ∧ (op :: bs).length = i.length + bs'.length

/-- The bytes of a list decode to an instruction exactly when they are well-formed: a legal opcode and the operand bytes its length asks
for (30_encoding.md, sections 1 and 4, against the lists of WellFormed.lean). -/
def Obligations.WellFormedBytesAreTheDecodable : Prop :=
  ∀ bs : List Byte, wellFormedBytes bs = true ↔ ∃ i, decode bs = .ok (i, [])

/-- A few words written out bit by bit decode to the instruction they stand for: the three bytes the source itself gives (0x06, 0x7E, 0x3A)
and one of each other format. -/
def Obligations.WrittenOutWordsDecode : Prop :=
  decode [0b00000110#8, 0xFE#8] = .ok (.ldBN 0xFE#8, []) ∧ decode [0b01111110#8] = .ok (.ldAAtHL, []) ∧
    decode [0b00111010#8] = .ok (.ldAAtHLDec, []) ∧ decode [0b01000001#8] = .ok (.ldBC, []) ∧
    decode [0b00001000#8, 0x34#8, 0xC2#8] = .ok (.ldAtNNSP 0xC234#16, []) ∧
    decode [0b11110101#8] = .ok (.pushAF, []) ∧ decode [0b11001011#8, 0x37#8] = .error (.unimplemented 0xCB#8)

/-! ### The step -/

/-- When the bytes at PC decode to an instruction, read as a list from the addresses of the instruction's bytes, a step is that
instruction's meaning. -/
def Obligations.StepRunsWhatDecodes : Prop :=
  ∀ (s : State) (bs : List Byte) (i : Instr), decode bs = .ok (i, []) →
    (∀ k v, bs[k]? = some v → instrByteAddr s k < s.params.memSize ∧ s.peek (instrByteAddr s k) = v) → step s = exec i s

/-- A step that commits is the meaning of an instruction whose bytes stand at PC. -/
def Obligations.CommittedStepFetchedAnInstruction : Prop :=
  ∀ s t : State, step s = .next t → ∃ i, BytesAtPc i s ∧ exec i s = .next t

/-- R601: an opcode byte without an entry in DECODE raises UnimplementedOpcode with the opcode and PC0, whatever the bytes after
it are and whether or not they exist; and the caller keeps the whole state as it was. -/
def Obligations.UnimplementedOpcodeFaults : Prop :=
  ∀ s : State, s.pc.toNat < s.params.memSize → rowOf (s.peek s.pc.toNat) = none →
    step s = .fault (.unimplementedOpcode (s.peek s.pc.toNat) s.pc) ∧
      callStep s = ⟨s, some (.fault (.unimplementedOpcode (s.peek s.pc.toNat) s.pc))⟩

/-- The fetch faults at the first byte of the instruction that does not exist: the opcode, then operand byte 1, then operand byte 2; an
operand byte is looked for only if the opcode has an entry (60_exceptions.md, section 2, the spec's decision D12). -/
def Obligations.FetchFaultsInOrder : Prop :=
  ∀ s : State,
    (s.params.memSize ≤ s.pc.toNat → step s = .fault (.outOfRangeAddress s.pc.toNat s.pc)) ∧
    (∀ r, s.pc.toNat < s.params.memSize → rowOf (s.peek s.pc.toNat) = some r → 2 ≤ r.form.length →
      s.params.memSize ≤ instrByteAddr s 1 → step s = .fault (.outOfRangeAddress (instrByteAddr s 1) s.pc)) ∧
    (∀ r, s.pc.toNat < s.params.memSize → rowOf (s.peek s.pc.toNat) = some r → r.form.length = 3 →
      instrByteAddr s 1 < s.params.memSize → s.params.memSize ≤ instrByteAddr s 2 →
      step s = .fault (.outOfRangeAddress (instrByteAddr s 2) s.pc))

/-- Every step commits or raises one of the two faults, with PC0 in the report, and an address reported does not exist. It never
refuses (60_exceptions.md, section 1). -/
def Obligations.OnlyTwoFaultsExist : Prop :=
  ∀ s : State, (∃ t, step s = .next t) ∨
    (∃ op, step s = .fault (.unimplementedOpcode op s.pc) ∧ s.peek s.pc.toNat = op ∧ rowOf op = none) ∨
    (∃ a, step s = .fault (.outOfRangeAddress a s.pc) ∧ s.params.memSize ≤ a)

/-- In the whole 16-bit space with ADDR_OVERFLOW = Wrap no access can be out of range; with Fault the only address a step can report is
0x10000 (40_step.md, section 1, the parameter of the spec's decision D9). -/
def Obligations.OutOfRangeInTheFullSpace : Prop :=
  ∀ (s : State) (a : Nat) (p : Word), s.params.memSize = 65536 → step s = .fault (.outOfRangeAddress a p) →
    s.params.addrOverflow = .fault ∧ a = 0x10000

/-- A committed step moves PC by the length of the instruction, 1, 2 or 3, modulo 2^16 (the spec's decision D7), and by nothing
else: no instruction transfers control. -/
def Obligations.PcAdvancesByTheLength : Prop :=
  ∀ (i : Instr) (s t : State), exec i s = .next t →
    t.pc.toNat = (s.pc.toNat + i.length) % 65536 ∧ i.length ∈ [1, 2, 3]

/-- R206: a committed step adds the entry's fixed cost, 4, 8, 12, 16 or 20, to the cycle counter, whatever the operands are. -/
def Obligations.CyclesGrowByTheFixedCost : Prop :=
  (∀ (i : Instr) (s t : State), exec i s = .next t → t.cycles = s.cycles + i.cost) ∧
    (∀ i : Instr, i.cost ∈ [4, 8, 12, 16, 20]) ∧ (∀ i j : Instr, i.opcode = j.opcode → i.cost = j.cost) ∧
    ∀ s : State, (callStep s).stop ≠ none → (callStep s).state.cycles = s.cycles

/-- R707: the cycle cost of each class, as its table gives it. -/
def Obligations.ClassCycleCosts : Prop :=
  ∀ row ∈ costsOfClasses, ∀ i : Instr, row.2 i → ∀ s t : State, exec i s = .next t → t.cycles = s.cycles + row.1

/-- No step changes a parameter, and construction sets every cell to 0x00. For MEM_SIZE the spec says so (20_memory.md, section 1: "sized
once"); that the other three parameters stand in State and stay as they are is the model's choice (log entry 1; 00_scope.md, section 4). -/
def Obligations.ParametersNeverChange : Prop :=
  (∀ s t : State, step s = .next t → t.params = s.params) ∧
    ∀ (p : Params) (a : Nat), (State.construct p).params = p ∧ (State.construct p).peek a = 0x00#8

/-! ### Every instruction at once -/

/-- An instruction completes exactly when every one of its data addresses exists; otherwise it reports the first one, in the order reads
before writes, that does not (60_exceptions.md, sections 1 and 2, the spec's decision D12). -/
def Obligations.DataAccessesDecideTheOutcome : Prop :=
  ∀ (i : Instr) (s : State),
    match firstOutOfRange s.params.memSize (dataAddrs i s) with
    | none => ∃ t, exec i s = .next t
    | some a => exec i s = .fault (.outOfRangeAddress a s.pc)

/-- After a committed instruction memory reads as its data writes, made in order, leave it, and every byte it does not store to reads as
before. -/
def Obligations.MemoryAfterAnInstruction : Prop :=
  ∀ (i : Instr) (s t : State), exec i s = .next t →
    (∀ x, x ∉ storeAddrs i s → t.peek x = s.peek x) ∧
      (s.mem.wf = true → ∀ x, t.peek x = peekAfter s.peek (storesOf i s) x)

/-- Each instruction writes only the byte registers of its row in the table of registers, SP only if it is LD SP,nn, LD SP,HL or a PUSH, and the
flags only if it is LD HL,SP+n; the inert F is never written (10_state.md, sections 1 to 3, rules the spec marks as derived or as its
decision D3). -/
def Obligations.OnlyTheNamedRegistersChange : Prop :=
  ∀ (i : Instr) (s t : State), exec i s = .next t →
    (∀ r, r ∉ destRegs i → t.get r = s.get r) ∧ (writesSp i = false → t.sp = s.sp) ∧
      (writesFlags i = false → t.flags = s.flags) ∧ t.f = s.f ∧ t.params = s.params

/-- F is inert: a step from a state that differs in F alone does the same, and F stays (10_state.md, section 1, the spec's decision
D3). -/
def Obligations.StepIgnoresTheFCell : Prop :=
  ∀ (s : State) (v : Byte), step (s.set .f v) = andThen (step s) fun t => .next (t.set .f v)

/-- No instruction reads the cycle counter: a step from a state that differs in it alone does the same (60_exceptions.md R610: "no instruction
reads or writes it"). -/
def Obligations.StepIgnoresTheCycleCounter : Prop :=
  ∀ (s : State) (k : Nat),
    step { s with cycles := s.cycles + k } = andThen (step s) fun t => .next { t with cycles := t.cycles + k }

/-- Only PUSH AF reads the flags, and only LD HL,SP+n writes them: every other instruction does the same under any flags (10_state.md, section
2, a rule the spec marks as derived). -/
def Obligations.OtherInstructionsIgnoreTheFlags : Prop :=
  ∀ (i : Instr) (s : State) (fl : Flags), i ≠ .pushAF → writesFlags i = false →
    exec i (s.setFlags fl) = andThen (exec i s) fun t => .next (t.setFlags fl)

/-- Every step keeps the invariant: legal parameters, a canonical memory, and no cell outside it. -/
def Obligations.StepKeepsTheInvariant : Prop :=
  ∀ s t : State, s.Inv → step s = .next t → t.Inv

/-! ### The host -/

/-- A fault leaves the caller with the state before the step, and calling again gives the same report (60_exceptions.md, section 3; the rule
that the whole state is unchanged is the spec's decision D11). -/
def Obligations.FaultLeavesTheCallersState : Prop :=
  ∀ (s : State) (x : Fault), step s = .fault x →
    callStep s = ⟨s, some (.fault x)⟩ ∧ callStep (callStep s).state = callStep s

/-- Every run of the host, of any steps, memory writes and new constructions, keeps the invariant and the parameters, and where it goes on
with one CPU its cycle counter never goes down. That a new Memory Map has the size of the old one is the model's reading (log entry 14). That
a host's write at a missing address ends the run too is the model's choice (log entry 5). -/
def Obligations.HostRunsKeepTheInvariant : Prop :=
  ∀ (xs : List DriverAction) (s : State), s.Inv →
    (runDriver xs s).state.Inv ∧ (runDriver xs s).state.params = s.params ∧
      ((∀ x ∈ xs, x.keepsCpu = true) → s.cycles ≤ (runDriver xs s).state.cycles)

/-- Resetting again (70_reset_and_hazards.md, section 1, which the spec marks as its decision D21): a new CPU has every register, flag and the
cycle counter zero and finds the memory as it was; with a new Memory Map too, every cell is 0x00 as well. Neither fails. That the new Memory
Map has the size of the old one is the model's reading (log entry 14). -/
def Obligations.ResettingAgainIsConstruction : Prop :=
  ∀ s : State, ∃ t u, act .newCpu s = ⟨t, none⟩ ∧ act .newMachine s = ⟨u, none⟩ ∧
    (∀ r, t.get r = 0x00#8 ∧ u.get r = 0x00#8) ∧ (t.pc = 0x0000#16 ∧ u.pc = 0x0000#16) ∧ (t.sp = 0x0000#16 ∧ u.sp = 0x0000#16) ∧
    (t.flags = ⟨false, false, false, false⟩ ∧ u.flags = ⟨false, false, false, false⟩) ∧ (t.cycles = 0 ∧ u.cycles = 0) ∧
    (∀ a, t.peek a = s.peek a ∧ u.peek a = 0x00#8) ∧ (t.mem.wf = s.mem.wf ∧ u.mem.wf = true) ∧
    (t.params = s.params ∧ u.params = s.params)

/-- A run is over at its first failure (60_exceptions.md, section 3), and before one it is the run of its parts. That a host's write at a
missing address is such a failure is the model's choice (log entry 5). -/
def Obligations.RunsEndAtTheFirstFailure : Prop :=
  ∀ (xs ys : List DriverAction) (s : State),
    runDriver (xs ++ ys) s =
      match (runDriver xs s).stop with
      | none => runDriver ys (runDriver xs s).state
      | some _ => runDriver xs s

/-- A program word the host places at PC is what the next step runs (70_reset_and_hazards.md, section 2; log entry 6). -/
def Obligations.PlacedWordRunsNext : Prop :=
  ∀ (s : State) (nbits w : Nat) (i : Instr), s.mem.wf = true →
    (∀ k, k < 3 → instrByteAddr s k < s.params.memSize) → decodeTableWord nbits w = some i →
    step (s.withFetchWord nbits w) = exec i (s.withFetchWord nbits w)

/-- Self-modifying code needs no fence: a byte stored by LD (HL),A over the next instruction's opcode is the instruction the next step
runs (20_memory.md, section 4, the spec's decision D12). -/
def Obligations.StoredOpcodeIsFetchedNext : Prop :=
  ∀ (s : State) (i : Instr), s.mem.wf = true → encode i = [s.a] → (hlAddress s).toNat < s.params.memSize →
    hlAddress s = s.pc + 1#16 → ∃ t, exec .ldAtHLA s = .next t ∧ step t = exec i t

/-! ### The instructions, class by class -/

/-- `LD r,r'` (all 49): the destination takes the source's value, and nothing else changes but PC and cycles; a self-move changes those
only. -/
def Obligations.LoadRegisterFromRegister : Prop :=
  ∀ (dst src : OpReg) (s : State), ∃ t, exec (.ldRR dst src) s = .next t ∧ t.get dst.reg = s.get src.reg ∧
    PlainFrame [dst.reg] [] 1 4 s t

/-- `LD r,n` (all 7): the register takes the immediate byte. -/
def Obligations.LoadRegisterImmediate : Prop :=
  ∀ (dst : OpReg) (n : Byte) (s : State), ∃ t, exec (.ldRN dst n) s = .next t ∧ t.get dst.reg = n ∧ PlainFrame [dst.reg] [] 2 8 s t

/-- `LD r,(HL)` (all 7): the register takes the byte at the HL address of the state before, H and L as destinations included; a missing
address faults. -/
def Obligations.LoadRegisterAtHl : Prop :=
  ∀ (dst : OpReg) (s : State),
    ((hlAddress s).toNat < s.params.memSize →
      ∃ t, exec (.ldRAtHL dst) s = .next t ∧ t.get dst.reg = s.peek (hlAddress s).toNat ∧ PlainFrame [dst.reg] [] 1 8 s t) ∧
    (s.params.memSize ≤ (hlAddress s).toNat → exec (.ldRAtHL dst) s = .fault (.outOfRangeAddress (hlAddress s).toNat s.pc))

/-- `LD (HL),r` (all 7): the byte at the HL address becomes the register's, H and L as sources included; a missing address faults. -/
def Obligations.StoreRegisterAtHl : Prop :=
  ∀ (src : OpReg) (s : State),
    ((hlAddress s).toNat < s.params.memSize →
      ∃ t, exec (.ldAtHLR src) s = .next t ∧ (s.mem.wf = true → t.peek (hlAddress s).toNat = s.get src.reg) ∧
        PlainFrame [] [(hlAddress s).toNat] 1 8 s t) ∧
    (s.params.memSize ≤ (hlAddress s).toNat → exec (.ldAtHLR src) s = .fault (.outOfRangeAddress (hlAddress s).toNat s.pc))

/-- `LD (HL),n`: the byte at the HL address becomes the immediate; a missing address faults. -/
def Obligations.StoreImmediateAtHl : Prop :=
  ∀ (n : Byte) (s : State),
    ((hlAddress s).toNat < s.params.memSize →
      ∃ t, exec (.ldAtHLN n) s = .next t ∧ (s.mem.wf = true → t.peek (hlAddress s).toNat = n) ∧
        PlainFrame [] [(hlAddress s).toNat] 2 12 s t) ∧
    (s.params.memSize ≤ (hlAddress s).toNat → exec (.ldAtHLN n) s = .fault (.outOfRangeAddress (hlAddress s).toNat s.pc))

/-- `LD A,(BC)`, `LD A,(DE)`, `LD A,(nn)`, `LD A,(0xFF00+C)` and `LD A,(0xFF00+n)`: A takes the byte at the address; a missing address
faults. -/
def Obligations.LoadAccumulator : Prop :=
  ∀ (n : Byte) (nn : Word) (s : State),
    ∀ form ∈ [(Instr.ldAAtBC, bcAddress s, 1, 8), (.ldAAtDE, deAddress s, 1, 8), (.ldAAtNN nn, nn, 3, 16),
        (.ldAIoC, ioAddress s.c, 1, 8), (.ldAIoN n, ioAddress n, 2, 12)],
      (form.2.1.toNat < s.params.memSize →
        ∃ t, exec form.1 s = .next t ∧ t.a = s.peek form.2.1.toNat ∧ PlainFrame [.a] [] form.2.2.1 form.2.2.2 s t) ∧
      (s.params.memSize ≤ form.2.1.toNat → exec form.1 s = .fault (.outOfRangeAddress form.2.1.toNat s.pc))

/-- `LD (BC),A`, `LD (DE),A`, `LD (nn),A`, `LD (0xFF00+C),A` and `LD (0xFF00+n),A`: the byte at the address becomes A; a missing address
faults. -/
def Obligations.StoreAccumulator : Prop :=
  ∀ (n : Byte) (nn : Word) (s : State),
    ∀ form ∈ [(Instr.ldAtBCA, bcAddress s, 1, 8), (.ldAtDEA, deAddress s, 1, 8), (.ldAtNNA nn, nn, 3, 16),
        (.ldIoCA, ioAddress s.c, 1, 8), (.ldIoNA n, ioAddress n, 2, 12)],
      (form.2.1.toNat < s.params.memSize →
        ∃ t, exec form.1 s = .next t ∧ (s.mem.wf = true → t.peek form.2.1.toNat = s.a) ∧
          PlainFrame [] [form.2.1.toNat] form.2.2.1 form.2.2.2 s t) ∧
      (s.params.memSize ≤ form.2.1.toNat → exec form.1 s = .fault (.outOfRangeAddress form.2.1.toNat s.pc))

/-- `LD A,(HL+)` and `LD A,(HL-)`: A takes the byte at the HL address of the state before, then HL moves by one modulo 2^16, with no flag
change; a missing address faults and moves nothing. -/
def Obligations.LoadAccumulatorMovingHl : Prop :=
  ∀ (s : State), ∀ form ∈ [(Instr.ldAAtHLInc, 1#16), (.ldAAtHLDec, 0xFFFF#16)],
    ((hlAddress s).toNat < s.params.memSize →
      ∃ t, exec form.1 s = .next t ∧ t.a = s.peek (hlAddress s).toNat ∧ hlAddress t = hlAddress s + form.2 ∧
        PlainFrame [.a, .h, .l] [] 1 8 s t) ∧
    (s.params.memSize ≤ (hlAddress s).toNat → exec form.1 s = .fault (.outOfRangeAddress (hlAddress s).toNat s.pc))

/-- `LD (HL+),A` and `LD (HL-),A`: the byte at the HL address of the state before becomes A, then HL moves by one modulo 2^16, with no flag
change; a missing address faults and moves nothing. -/
def Obligations.StoreAccumulatorMovingHl : Prop :=
  ∀ (s : State), ∀ form ∈ [(Instr.ldAtHLIncA, 1#16), (.ldAtHLDecA, 0xFFFF#16)],
    ((hlAddress s).toNat < s.params.memSize →
      ∃ t, exec form.1 s = .next t ∧ (s.mem.wf = true → t.peek (hlAddress s).toNat = s.a) ∧
        hlAddress t = hlAddress s + form.2 ∧ PlainFrame [.h, .l] [(hlAddress s).toNat] 1 8 s t) ∧
    (s.params.memSize ≤ (hlAddress s).toNat → exec form.1 s = .fault (.outOfRangeAddress (hlAddress s).toNat s.pc))

/-- `LD BC,nn`, `LD DE,nn` and `LD HL,nn`: the first-named register takes the high byte and the second the low byte. -/
def Obligations.LoadPairImmediate : Prop :=
  ∀ (nn : Word) (s : State), ∀ form ∈ pairLoads, ∃ t, exec (form.1 nn) s = .next t ∧
    (t.get form.2.1).toNat = nn.toNat / 256 ∧ (t.get form.2.2).toNat = nn.toNat % 256 ∧
    PlainFrame [form.2.1, form.2.2] [] 3 12 s t

/-- `LD SP,nn` and `LD SP,HL`: SP takes the whole 16-bit value; no byte register, flag or memory byte changes. -/
def Obligations.LoadStackPointer : Prop :=
  ∀ (nn : Word) (s : State),
    (∃ t, exec (.ldSPNN nn) s = .next t ∧ t.sp = nn ∧ t.flags = s.flags ∧ Frame [] [] 3 12 s t) ∧
      ∃ t, exec .ldSPHL s = .next t ∧ t.sp = hlAddress s ∧ t.flags = s.flags ∧ Frame [] [] 1 8 s t

/-- `LD HL,SP+n`: HL takes SP plus the signed displacement modulo 2^16; Z and N are cleared; H and C are what the machine's instance of
LDHLSP_FLAGS gives (the parameter of the spec's decision D6); SP and memory are unchanged. -/
def Obligations.LoadHlFromSpPlusDisplacement : Prop :=
  ∀ (n : Byte) (s : State), ∃ t, exec (.ldHLSPN n) s = .next t ∧
    ((hlAddress t).toNat : Int) = ((s.sp.toNat : Int) + n.toInt) % 65536 ∧
    t.flags = ⟨false, false, (ldhlspFlags s.params s.sp n).1, (ldhlspFlags s.params s.sp n).2⟩ ∧ t.sp = s.sp ∧
    Frame [.h, .l] [] 2 12 s t

/-- The default of LDHLSP_FLAGS, the spec's own choice (decision D6): H is bit 3 of SP and bit 4 of the wrapped sum; C is a sum over
0xFFFF, which no negative displacement gives. -/
def Obligations.DefaultFlagsOfLoadHlFromSp : Prop :=
  ∀ (p : Params) (sp : Word) (n : Byte), p.ldhlspFlags = [] →
    ldhlspFlags p sp n =
      (sp.getLsbD 3 && (wrap16 ((sp.toNat : Int) + n.toInt)).getLsbD 4, decide (0xFFFF < (sp.toNat : Int) + n.toInt)) ∧
      (n.toInt < 0 → (ldhlspFlags p sp n).2 = false)

/-- Every total function of (SP, n) is an instance of LDHLSP_FLAGS that legal parameters can name (log entry 2). -/
def Obligations.EveryFlagsFunctionIsAnInstance : Prop :=
  ∀ g : Word → Byte → Bool × Bool, ∃ p : Params, p.wf = true ∧ ∀ sp n, ldhlspFlags p sp n = g sp n

/-- `LD (nn),SP`: SP's low byte goes to nn and its high byte to the address after it, whichever meaning that has past 0xFFFF; a missing
address faults, the low byte's first; no register changes. -/
def Obligations.StoreStackPointer : Prop :=
  ∀ (nn : Word) (s : State),
    (nn.toNat < s.params.memSize → addrPlus s.params nn.toNat 1 < s.params.memSize →
      ∃ t, exec (.ldAtNNSP nn) s = .next t ∧
        (s.mem.wf = true → (t.peek nn.toNat).toNat = s.sp.toNat % 256 ∧
          (t.peek (addrPlus s.params nn.toNat 1)).toNat = s.sp.toNat / 256) ∧
        PlainFrame [] [nn.toNat, addrPlus s.params nn.toNat 1] 3 20 s t) ∧
    (s.params.memSize ≤ nn.toNat → exec (.ldAtNNSP nn) s = .fault (.outOfRangeAddress nn.toNat s.pc)) ∧
    (nn.toNat < s.params.memSize → s.params.memSize ≤ addrPlus s.params nn.toNat 1 →
      exec (.ldAtNNSP nn) s = .fault (.outOfRangeAddress (addrPlus s.params nn.toNat 1) s.pc))

/-- `PUSH BC`, `PUSH DE`, `PUSH HL` and `PUSH AF`: the high byte goes to SP - 1 and the low byte to SP - 2, modulo 2^16 (the spec's decision
D8), and SP ends there; for AF the low byte is the flags byte, not F. A missing address faults, SP - 1 first. -/
def Obligations.PushWritesHighThenLow : Prop :=
  ∀ (s : State), ∀ form ∈ [(Instr.pushBC, s.b, s.c), (.pushDE, s.d, s.e), (.pushHL, s.h, s.l), (.pushAF, s.a, flagsByte s.flags)],
    ((s.sp - 1#16).toNat < s.params.memSize → (s.sp - 2#16).toNat < s.params.memSize →
      ∃ t, exec form.1 s = .next t ∧ t.sp = s.sp - 2#16 ∧ t.flags = s.flags ∧
        (s.mem.wf = true → t.peek (s.sp - 1#16).toNat = form.2.1 ∧ t.peek (s.sp - 2#16).toNat = form.2.2) ∧
        Frame [] [(s.sp - 1#16).toNat, (s.sp - 2#16).toNat] 1 16 s t) ∧
    (s.params.memSize ≤ (s.sp - 1#16).toNat → exec form.1 s = .fault (.outOfRangeAddress (s.sp - 1#16).toNat s.pc)) ∧
    ((s.sp - 1#16).toNat < s.params.memSize → s.params.memSize ≤ (s.sp - 2#16).toNat →
      exec form.1 s = .fault (.outOfRangeAddress (s.sp - 2#16).toNat s.pc))
end

