-- ==== Sys2Proof/Laws/Decode.lean ====
section
/-! SUPPORT. The decode table as data. -/

namespace Sys2Proof

/-- A row that is found stands in the table under the byte looked for. -/
theorem findRow_some {op : Byte} {rows : List Row} {r : Row} (hfind : findRow op rows = some r) : r ∈ rows ∧ r.opcode = op := by
  induction rows with
  | nil => simp [findRow] at hfind
  | cons q rows ih =>
    simp only [findRow] at hfind
    split at hfind
    · next heq =>
      cases hfind
      exact ⟨List.mem_cons_self, heq⟩
    · exact ⟨List.mem_cons_of_mem _ (ih hfind).1, (ih hfind).2⟩

theorem rowOf_some {op : Byte} {r : Row} (hrow : rowOf op = some r) : r ∈ decodeRows ∧ r.opcode = op := findRow_some hrow

/-- The table has no row for a byte exactly when no row's opcode is that byte. -/
theorem findRow_none {op : Byte} {rows : List Row} : findRow op rows = none ↔ ∀ r ∈ rows, r.opcode ≠ op := by
  induction rows with
  | nil => simp [findRow]
  | cons q rows ih =>
    simp only [findRow]
    split
    · next heq => simp [heq]
    · next hne => simp [ih, hne]

/-- What a row makes encodes to the row's opcode and the operand bytes it was made from. -/
def Row.Encodes (r : Row) : Prop :=
  match r.form with
  | .f1 i => encode i = [r.opcode]
  | .f2 make => ∀ n, encode (make n) = [r.opcode, n]
  | .f3 make => ∀ nn, encode (make nn) = [r.opcode, loByte nn, hiByte nn]

theorem decodeRows_encode : ∀ r ∈ decodeRows, r.Encodes := by
  simp only [decodeRows, decodeRows0, decodeRows1, decodeRows2, decodeRows3, decodeRows4, decodeRows5, decodeRows6, decodeRows7,
    List.cons_append, List.nil_append, List.forall_mem_cons]
  repeat (refine ⟨by first | rfl | (intro n; rfl), ?_⟩)
  simp

/-- The row found for a byte encodes back to that byte. -/
theorem rowOf_encodes {op : Byte} {r : Row} (hrow : rowOf op = some r) : r.opcode = op ∧ r.Encodes :=
  ⟨(rowOf_some hrow).2, decodeRows_encode r (rowOf_some hrow).1⟩

end Sys2Proof
end

