-- ==== Sys2Proof/Laws/State.lean ====
section
/-! SUPPORT. One lemma for each field and each update of the state, all true by unfolding, so that no later proof unfolds a
record update. -/

namespace Sys2Proof.Machine

variable (s : State)

/-! ### `set`: one byte register -/

@[simp] theorem State.set_pc (r : Reg) (v : Byte) : (s.set r v).pc = s.pc := by cases r <;> rfl
@[simp] theorem State.set_sp (r : Reg) (v : Byte) : (s.set r v).sp = s.sp := by cases r <;> rfl
@[simp] theorem State.set_flags (r : Reg) (v : Byte) : (s.set r v).flags = s.flags := by cases r <;> rfl
@[simp] theorem State.set_cycles (r : Reg) (v : Byte) : (s.set r v).cycles = s.cycles := by cases r <;> rfl
@[simp] theorem State.set_mem (r : Reg) (v : Byte) : (s.set r v).mem = s.mem := by cases r <;> rfl
@[simp] theorem State.set_params (r : Reg) (v : Byte) : (s.set r v).params = s.params := by cases r <;> rfl
@[simp] theorem State.set_get_same (r : Reg) (v : Byte) : (s.set r v).get r = v := by cases r <;> rfl
theorem State.set_get_other (v : Byte) {r q : Reg} (hne : q ≠ r) : (s.set r v).get q = s.get q := by
  cases r <;> cases q <;> first | rfl | exact absurd rfl hne

/-- A register read after a write of one register. -/
theorem State.set_get (r q : Reg) (v : Byte) : (s.set r v).get q = if q = r then v else s.get q := by
  split
  · next heq => rw [heq, State.set_get_same]
  · next hne => exact s.set_get_other v hne

/-! ### `setPair`, `setSp`, `setFlags`, `setMem` -/

@[simp] theorem State.setPair_pc (hi lo : Reg) (v : Word) : (s.setPair hi lo v).pc = s.pc := by simp [State.setPair]
@[simp] theorem State.setPair_sp (hi lo : Reg) (v : Word) : (s.setPair hi lo v).sp = s.sp := by simp [State.setPair]
@[simp] theorem State.setPair_flags (hi lo : Reg) (v : Word) : (s.setPair hi lo v).flags = s.flags := by simp [State.setPair]
@[simp] theorem State.setPair_cycles (hi lo : Reg) (v : Word) : (s.setPair hi lo v).cycles = s.cycles := by simp [State.setPair]
@[simp] theorem State.setPair_mem (hi lo : Reg) (v : Word) : (s.setPair hi lo v).mem = s.mem := by simp [State.setPair]
@[simp] theorem State.setPair_params (hi lo : Reg) (v : Word) : (s.setPair hi lo v).params = s.params := by simp [State.setPair]
theorem State.setPair_get (hi lo q : Reg) (v : Word) :
    (s.setPair hi lo v).get q = if q = lo then loByte v else if q = hi then hiByte v else s.get q := by
  simp [State.setPair, State.set_get]

@[simp] theorem State.setSp_pc (v : Word) : (s.setSp v).pc = s.pc := rfl
@[simp] theorem State.setSp_sp (v : Word) : (s.setSp v).sp = v := rfl
@[simp] theorem State.setSp_flags (v : Word) : (s.setSp v).flags = s.flags := rfl
@[simp] theorem State.setSp_cycles (v : Word) : (s.setSp v).cycles = s.cycles := rfl
@[simp] theorem State.setSp_mem (v : Word) : (s.setSp v).mem = s.mem := rfl
@[simp] theorem State.setSp_params (v : Word) : (s.setSp v).params = s.params := rfl
@[simp] theorem State.setSp_get (v : Word) (r : Reg) : (s.setSp v).get r = s.get r := by cases r <;> rfl
@[simp] theorem State.setFlags_pc (fl : Flags) : (s.setFlags fl).pc = s.pc := rfl
@[simp] theorem State.setFlags_sp (fl : Flags) : (s.setFlags fl).sp = s.sp := rfl
@[simp] theorem State.setFlags_flags (fl : Flags) : (s.setFlags fl).flags = fl := rfl
@[simp] theorem State.setFlags_cycles (fl : Flags) : (s.setFlags fl).cycles = s.cycles := rfl
@[simp] theorem State.setFlags_mem (fl : Flags) : (s.setFlags fl).mem = s.mem := rfl
@[simp] theorem State.setFlags_params (fl : Flags) : (s.setFlags fl).params = s.params := rfl
@[simp] theorem State.setFlags_get (fl : Flags) (r : Reg) : (s.setFlags fl).get r = s.get r := by cases r <;> rfl
@[simp] theorem State.setMem_pc (m : Memory) : (s.setMem m).pc = s.pc := rfl
@[simp] theorem State.setMem_sp (m : Memory) : (s.setMem m).sp = s.sp := rfl
@[simp] theorem State.setMem_flags (m : Memory) : (s.setMem m).flags = s.flags := rfl
@[simp] theorem State.setMem_cycles (m : Memory) : (s.setMem m).cycles = s.cycles := rfl
@[simp] theorem State.setMem_mem (m : Memory) : (s.setMem m).mem = m := rfl
@[simp] theorem State.setMem_params (m : Memory) : (s.setMem m).params = s.params := rfl
@[simp] theorem State.setMem_get (m : Memory) (r : Reg) : (s.setMem m).get r = s.get r := by cases r <;> rfl

/-! ### The HL updates and the flag helpers -/

@[simp] theorem incrementHl_pc : (incrementHl s).pc = s.pc := by simp [incrementHl]
@[simp] theorem incrementHl_sp : (incrementHl s).sp = s.sp := by simp [incrementHl]
@[simp] theorem incrementHl_flags : (incrementHl s).flags = s.flags := by simp [incrementHl]
@[simp] theorem incrementHl_cycles : (incrementHl s).cycles = s.cycles := by simp [incrementHl]
@[simp] theorem incrementHl_mem : (incrementHl s).mem = s.mem := by simp [incrementHl]
@[simp] theorem incrementHl_params : (incrementHl s).params = s.params := by simp [incrementHl]
theorem incrementHl_get_other {q : Reg} (hh : q ≠ .h) (hl : q ≠ .l) : (incrementHl s).get q = s.get q := by
  simp [incrementHl, State.setPair_get, hh, hl]
@[simp] theorem decrementHl_pc : (decrementHl s).pc = s.pc := by simp [decrementHl]
@[simp] theorem decrementHl_sp : (decrementHl s).sp = s.sp := by simp [decrementHl]
@[simp] theorem decrementHl_flags : (decrementHl s).flags = s.flags := by simp [decrementHl]
@[simp] theorem decrementHl_cycles : (decrementHl s).cycles = s.cycles := by simp [decrementHl]
@[simp] theorem decrementHl_mem : (decrementHl s).mem = s.mem := by simp [decrementHl]
@[simp] theorem decrementHl_params : (decrementHl s).params = s.params := by simp [decrementHl]
theorem decrementHl_get_other {q : Reg} (hh : q ≠ .h) (hl : q ≠ .l) : (decrementHl s).get q = s.get q := by
  simp [decrementHl, State.setPair_get, hh, hl]
@[simp] theorem clearZeroFlag_pc : (clearZeroFlag s).pc = s.pc := rfl
@[simp] theorem clearZeroFlag_sp : (clearZeroFlag s).sp = s.sp := rfl
@[simp] theorem clearZeroFlag_cycles : (clearZeroFlag s).cycles = s.cycles := rfl
@[simp] theorem clearZeroFlag_mem : (clearZeroFlag s).mem = s.mem := rfl
@[simp] theorem clearZeroFlag_params : (clearZeroFlag s).params = s.params := rfl
@[simp] theorem clearZeroFlag_get (r : Reg) : (clearZeroFlag s).get r = s.get r := by simp [clearZeroFlag]
@[simp] theorem clearSubtractFlag_pc : (clearSubtractFlag s).pc = s.pc := rfl
@[simp] theorem clearSubtractFlag_sp : (clearSubtractFlag s).sp = s.sp := rfl
@[simp] theorem clearSubtractFlag_cycles : (clearSubtractFlag s).cycles = s.cycles := rfl
@[simp] theorem clearSubtractFlag_mem : (clearSubtractFlag s).mem = s.mem := rfl
@[simp] theorem clearSubtractFlag_params : (clearSubtractFlag s).params = s.params := rfl
@[simp] theorem clearSubtractFlag_get (r : Reg) : (clearSubtractFlag s).get r = s.get r := by simp [clearSubtractFlag]
@[simp] theorem setZeroFlag_pc : (setZeroFlag s).pc = s.pc := rfl
@[simp] theorem setZeroFlag_sp : (setZeroFlag s).sp = s.sp := rfl
@[simp] theorem setZeroFlag_cycles : (setZeroFlag s).cycles = s.cycles := rfl
@[simp] theorem setZeroFlag_mem : (setZeroFlag s).mem = s.mem := rfl
@[simp] theorem setZeroFlag_params : (setZeroFlag s).params = s.params := rfl
@[simp] theorem setZeroFlag_get (r : Reg) : (setZeroFlag s).get r = s.get r := by simp [setZeroFlag]
@[simp] theorem setSubtractFlag_pc : (setSubtractFlag s).pc = s.pc := rfl
@[simp] theorem setSubtractFlag_sp : (setSubtractFlag s).sp = s.sp := rfl
@[simp] theorem setSubtractFlag_cycles : (setSubtractFlag s).cycles = s.cycles := rfl
@[simp] theorem setSubtractFlag_mem : (setSubtractFlag s).mem = s.mem := rfl
@[simp] theorem setSubtractFlag_params : (setSubtractFlag s).params = s.params := rfl
@[simp] theorem setSubtractFlag_get (r : Reg) : (setSubtractFlag s).get r = s.get r := by simp [setSubtractFlag]
@[simp] theorem assignHC_pc (hc : Bool × Bool) : (assignHC hc s).pc = s.pc := rfl
@[simp] theorem assignHC_sp (hc : Bool × Bool) : (assignHC hc s).sp = s.sp := rfl
@[simp] theorem assignHC_cycles (hc : Bool × Bool) : (assignHC hc s).cycles = s.cycles := rfl
@[simp] theorem assignHC_mem (hc : Bool × Bool) : (assignHC hc s).mem = s.mem := rfl
@[simp] theorem assignHC_params (hc : Bool × Bool) : (assignHC hc s).params = s.params := rfl
@[simp] theorem assignHC_get (hc : Bool × Bool) (r : Reg) : (assignHC hc s).get r = s.get r := by simp [assignHC]

@[simp] theorem setZeroFlag_flags : (setZeroFlag s).flags = ⟨true, s.flags.n, s.flags.h, s.flags.c⟩ := rfl
@[simp] theorem clearZeroFlag_flags : (clearZeroFlag s).flags = ⟨false, s.flags.n, s.flags.h, s.flags.c⟩ := rfl
@[simp] theorem setSubtractFlag_flags : (setSubtractFlag s).flags = ⟨s.flags.z, true, s.flags.h, s.flags.c⟩ := rfl
@[simp] theorem clearSubtractFlag_flags : (clearSubtractFlag s).flags = ⟨s.flags.z, false, s.flags.h, s.flags.c⟩ := rfl
@[simp] theorem assignHC_flags (hc : Bool × Bool) : (assignHC hc s).flags = ⟨s.flags.z, s.flags.n, hc.1, hc.2⟩ := rfl

/-! ### Construction -/

@[simp] theorem State.constructCpu_pc (p : Params) (m : Memory) : (State.constructCpu p m).pc = 0x0000#16 := rfl
@[simp] theorem State.constructCpu_sp (p : Params) (m : Memory) : (State.constructCpu p m).sp = 0x0000#16 := rfl
@[simp] theorem State.constructCpu_flags (p : Params) (m : Memory) :
    (State.constructCpu p m).flags = ⟨false, false, false, false⟩ := rfl
@[simp] theorem State.constructCpu_cycles (p : Params) (m : Memory) : (State.constructCpu p m).cycles = 0 := rfl
@[simp] theorem State.constructCpu_mem (p : Params) (m : Memory) : (State.constructCpu p m).mem = m := rfl
@[simp] theorem State.constructCpu_params (p : Params) (m : Memory) : (State.constructCpu p m).params = p := rfl
@[simp] theorem State.constructCpu_get (p : Params) (m : Memory) (r : Reg) : (State.constructCpu p m).get r = 0x00#8 := by
  cases r <;> rfl
theorem State.newCpu_eq : s.newCpu = State.constructCpu s.params s.mem := rfl
theorem State.newMachine_eq : s.newMachine = State.constructCpu s.params Memory.construct := rfl

/-! ### Registers by name -/

@[simp] theorem State.get_a : s.get .a = s.a := rfl
@[simp] theorem State.get_b : s.get .b = s.b := rfl
@[simp] theorem State.get_c : s.get .c = s.c := rfl
@[simp] theorem State.get_d : s.get .d = s.d := rfl
@[simp] theorem State.get_e : s.get .e = s.e := rfl
@[simp] theorem State.get_h : s.get .h = s.h := rfl
@[simp] theorem State.get_l : s.get .l = s.l := rfl
@[simp] theorem State.get_f : s.get .f = s.f := rfl

/-- Two states with the same registers, flags, counter, memory and parameters are one state. -/
theorem State.ext_get {s t : State} (hget : ∀ r, t.get r = s.get r) (hpc : t.pc = s.pc) (hsp : t.sp = s.sp)
    (hflags : t.flags = s.flags) (hcycles : t.cycles = s.cycles) (hmem : t.mem = s.mem) (hparams : t.params = s.params) :
    t = s := by
  have ha := hget .a; have hb := hget .b; have hc := hget .c; have hd := hget .d
  have he := hget .e; have hh := hget .h; have hl := hget .l; have hf := hget .f
  cases s; cases t
  simp_all

end Sys2Proof.Machine
end

