-- ==== Sys2Proof/Laws/Memory.lean ====
section
/-! SUPPORT. The laws of memory: a read after a write, and that a write keeps the canonical form. -/

namespace Sys2Proof.Machine

theorem Memory.wfFrom_cons (lo a : Nat) (v : Byte) (m : Memory) :
    Memory.wfFrom lo ((a, v) :: m) = true ↔ lo ≤ a ∧ v ≠ 0#8 ∧ Memory.wfFrom (a + 1) m = true := by
  simp [Memory.wfFrom, and_assoc]

/-- Canonical from an address is canonical from every lower one. -/
theorem Memory.wfFrom_mono {lo lo' : Nat} (hle : lo ≤ lo') {m : Memory} (hwf : Memory.wfFrom lo' m = true) :
    Memory.wfFrom lo m = true := by
  cases m with
  | nil => rfl
  | cons cell m =>
    obtain ⟨a, v⟩ := cell
    rw [Memory.wfFrom_cons] at hwf ⊢
    exact ⟨by omega, hwf.2⟩

/-- Below the first listed address every cell reads 0x00. -/
theorem Memory.read_of_lt {lo a : Nat} (hlt : a < lo) {m : Memory} (hwf : Memory.wfFrom lo m = true) :
    Memory.read a m = 0#8 := by
  induction m generalizing lo with
  | nil => rfl
  | cons cell m ih =>
    obtain ⟨k, w⟩ := cell
    rw [Memory.wfFrom_cons] at hwf
    have hne : k ≠ a := by omega
    simp only [Memory.read, hne, if_false]
    exact ih (by omega) hwf.2.2

/-- A write leaves every other cell alone, in every memory. -/
theorem Memory.read_write_other {a x : Nat} (hne : x ≠ a) (v : Byte) (m : Memory) :
    Memory.read x (Memory.write a v m) = Memory.read x m := by
  induction m with
  | nil =>
    simp only [Memory.write]
    split
    · rfl
    · simp [Memory.read, hne.symm]
  | cons cell m ih =>
    obtain ⟨k, w⟩ := cell
    simp only [Memory.write]
    split
    · split
      · rfl
      · simp [Memory.read, hne.symm]
    · split
      · next heq =>
        subst heq
        split <;> simp [Memory.read, hne.symm]
      · simp only [Memory.read, ih]

/-- A read of a written cell gives the byte written, in a canonical memory. -/
theorem Memory.read_write_same {lo a : Nat} (v : Byte) {m : Memory} (hwf : Memory.wfFrom lo m = true) :
    Memory.read a (Memory.write a v m) = v := by
  induction m generalizing lo with
  | nil =>
    simp only [Memory.write]
    split
    · next hv => simp [Memory.read, hv]
    · simp [Memory.read]
  | cons cell m ih =>
    obtain ⟨k, w⟩ := cell
    have hcell := (Memory.wfFrom_cons lo k w m).mp hwf
    simp only [Memory.write]
    split
    · next hlt =>
      split
      · next hv => rw [Memory.read_of_lt (lo := k) hlt ((Memory.wfFrom_cons k k w m).mpr ⟨le_refl k, hcell.2⟩), hv]
      · simp [Memory.read]
    · split
      · next heq =>
        subst heq
        split
        · next hv => rw [Memory.read_of_lt (Nat.lt_succ_self a) hcell.2.2, hv]
        · simp [Memory.read]
      · next hne =>
        simp only [Memory.read, Ne.symm hne, if_false]
        exact ih hcell.2.2

theorem Memory.wfFrom_write {lo a : Nat} (hle : lo ≤ a) (v : Byte) {m : Memory} (hwf : Memory.wfFrom lo m = true) :
    Memory.wfFrom lo (Memory.write a v m) = true := by
  induction m generalizing lo with
  | nil =>
    simp only [Memory.write]
    split
    · rfl
    · next hv => simp [hle, hv, Memory.wfFrom]
  | cons cell m ih =>
    obtain ⟨k, w⟩ := cell
    have hcell := (Memory.wfFrom_cons lo k w m).mp hwf
    simp only [Memory.write]
    split
    · next hlt =>
      split
      · exact hwf
      · next hv =>
        rw [Memory.wfFrom_cons, Memory.wfFrom_cons]
        exact ⟨hle, hv, by omega, hcell.2⟩
    · split
      · next heq =>
        subst heq
        split
        · exact Memory.wfFrom_mono (by omega) hcell.2.2
        · next hv => exact (Memory.wfFrom_cons lo a v m).mpr ⟨hle, hv, hcell.2.2⟩
      · rw [Memory.wfFrom_cons]
        exact ⟨hcell.1, hcell.2.1, ih (by omega) hcell.2.2⟩

/-- Every write keeps the canonical form. -/
theorem Memory.wf_write (a : Nat) (v : Byte) {m : Memory} (hwf : m.wf = true) : (Memory.write a v m).wf = true :=
  Memory.wfFrom_write (Nat.zero_le a) v hwf

theorem Memory.below_cons (size a : Nat) (v : Byte) (m : Memory) :
    Memory.below size ((a, v) :: m) = true ↔ a < size ∧ Memory.below size m = true := by
  simp only [Memory.below, List.all_cons, Bool.and_eq_true, decide_eq_true_eq]

/-- A write below `size` lists no address from `size` up. -/
theorem Memory.below_write {size a : Nat} (hlt : a < size) (v : Byte) {m : Memory} (hbelow : m.below size = true) :
    (Memory.write a v m).below size = true := by
  induction m with
  | nil =>
    simp only [Memory.write]
    split <;> simp [Memory.below, hlt]
  | cons cell m ih =>
    obtain ⟨k, w⟩ := cell
    have hcell := (Memory.below_cons size k w m).mp hbelow
    simp only [Memory.write]
    split
    · split
      · exact hbelow
      · exact (Memory.below_cons size a v _).mpr ⟨hlt, hbelow⟩
    · split
      · split
        · exact hcell.2
        · exact (Memory.below_cons size a v m).mpr ⟨hlt, hcell.2⟩
      · exact (Memory.below_cons size k w _).mpr ⟨hcell.1, ih hcell.2⟩

/-- In a memory that lists no address from `size` up, those cells read 0x00. -/
theorem Memory.read_of_below {size a : Nat} (hle : size ≤ a) {m : Memory} (hbelow : m.below size = true) :
    Memory.read a m = 0#8 := by
  induction m with
  | nil => rfl
  | cons cell m ih =>
    obtain ⟨k, w⟩ := cell
    have hcell := (Memory.below_cons size k w m).mp hbelow
    have hne : k ≠ a := by omega
    simp only [Memory.read, hne, if_false]
    exact ih hcell.2

@[simp] theorem State.peek_setMem (s : State) (m : Memory) (a : Nat) : (s.setMem m).peek a = m.read a := rfl

/-- States with the same memory show the same cells. -/
theorem State.peek_eq_of_mem {s t : State} (hmem : t.mem = s.mem) (a : Nat) : t.peek a = s.peek a := by
  simp [State.peek, hmem]

/-! ### Several writes in order -/

/-- Writes made in order. -/
def Memory.writeAll : List (Nat × Byte) → Memory → Memory
  | [], m => m
  | (a, v) :: ws, m => Memory.writeAll ws (Memory.write a v m)

theorem Memory.read_writeAll_other {ws : List (Nat × Byte)} {x : Nat} (hx : x ∉ ws.map Prod.fst) (m : Memory) :
    Memory.read x (Memory.writeAll ws m) = Memory.read x m := by
  induction ws generalizing m with
  | nil => rfl
  | cons w ws ih =>
    simp only [List.map_cons, List.mem_cons, not_or] at hx
    rw [Memory.writeAll, ih hx.2, Memory.read_write_other hx.1]

theorem Memory.wf_writeAll (ws : List (Nat × Byte)) {m : Memory} (hwf : m.wf = true) : (Memory.writeAll ws m).wf = true := by
  induction ws generalizing m with
  | nil => exact hwf
  | cons w ws ih => exact ih (Memory.wf_write _ _ hwf)

theorem Memory.below_writeAll {size : Nat} {ws : List (Nat × Byte)} (hlt : ∀ a ∈ ws.map Prod.fst, a < size) {m : Memory}
    (hbelow : m.below size = true) : (Memory.writeAll ws m).below size = true := by
  induction ws generalizing m with
  | nil => exact hbelow
  | cons w ws ih =>
    simp only [List.map_cons, List.mem_cons, forall_eq_or_imp] at hlt
    exact ih hlt.2 (Memory.below_write hlt.1 _ hbelow)

end Sys2Proof.Machine
end

