-- ==== Sys2Proof/Laws/Ops.lean ====
section
/-! SUPPORT. Each shared operation once: when it answers a next state, and everything that state is; and when it faults. -/

namespace Sys2Proof.Machine

/-! ### `andThen` -/

@[simp] theorem andThen_next {α β : Type} (v : α) (k : α → Result β) : andThen (.next v) k = k v := rfl
@[simp] theorem andThen_fault {α β : Type} (x : Fault) (k : α → Result β) : andThen (.fault x) k = .fault x := rfl
@[simp] theorem andThen_refused {α β : Type} (x : Refusal) (k : α → Result β) : andThen (.refused x) k = .refused x := rfl

/-- A sequence answers exactly when both parts do. -/
theorem andThen_eq_next {α β : Type} {r : Result α} {k : α → Result β} {w : β} :
    andThen r k = .next w ↔ ∃ v, r = .next v ∧ k v = .next w := by
  cases r <;> simp

/-- A sequence faults where its first part does, or where its second does after it. -/
theorem andThen_eq_fault {α β : Type} {r : Result α} {k : α → Result β} {x : Fault} :
    andThen r k = .fault x ↔ r = .fault x ∨ ∃ v, r = .next v ∧ k v = .fault x := by
  cases r <;> simp

/-- A sequence refuses only where a part does. -/
theorem andThen_eq_refused {α β : Type} {r : Result α} {k : α → Result β} {x : Refusal} :
    andThen r k = .refused x ↔ r = .refused x ∨ ∃ v, r = .next v ∧ k v = .refused x := by
  cases r <;> simp

/-- Sequences associate. -/
theorem andThen_assoc {α β γ : Type} (r : Result α) (k : α → Result β) (k' : β → Result γ) :
    andThen (andThen r k) k' = andThen r fun v => andThen (k v) k' := by
  cases r <;> rfl

/-! ### Memory accesses -/

theorem memRead_of_lt {addr : Nat} {s : State} (hlt : addr < s.params.memSize) : memRead addr s = .next (s.peek addr) := by
  simp [memRead, hlt, State.peek]

theorem memRead_of_ge {addr : Nat} {s : State} (hge : s.params.memSize ≤ addr) :
    memRead addr s = .fault (.outOfRangeAddress addr s.pc) := by
  simp [memRead, raiseOutOfRange, Nat.not_lt.mpr hge]

/-- A read answers the cell's byte, and only at an address that exists. -/
theorem memRead_eq_next {addr : Nat} {s : State} {v : Byte} :
    memRead addr s = .next v ↔ addr < s.params.memSize ∧ s.peek addr = v := by
  by_cases hlt : addr < s.params.memSize
  · simp [memRead_of_lt hlt, hlt]
  · simp [memRead_of_ge (Nat.not_lt.mp hlt), hlt]

/-- A read faults exactly at an address that does not exist. -/
theorem memRead_eq_fault {addr : Nat} {s : State} {x : Fault} :
    memRead addr s = .fault x ↔ s.params.memSize ≤ addr ∧ x = .outOfRangeAddress addr s.pc := by
  by_cases hlt : addr < s.params.memSize
  · simp [memRead_of_lt hlt, hlt]
  · simp [memRead_of_ge (Nat.not_lt.mp hlt), Nat.not_lt.mp hlt, eq_comm]

theorem memRead_ne_refused {addr : Nat} {s : State} {x : Refusal} : memRead addr s ≠ .refused x := by
  by_cases hlt : addr < s.params.memSize
  · simp [memRead_of_lt hlt]
  · simp [memRead_of_ge (Nat.not_lt.mp hlt)]

theorem memWrite_of_lt {addr : Nat} {v : Byte} {s : State} (hlt : addr < s.params.memSize) :
    memWrite addr v s = .next (s.setMem (s.mem.write addr v)) := by
  simp [memWrite, hlt]

theorem memWrite_of_ge {addr : Nat} {v : Byte} {s : State} (hge : s.params.memSize ≤ addr) :
    memWrite addr v s = .fault (.outOfRangeAddress addr s.pc) := by
  simp [memWrite, raiseOutOfRange, Nat.not_lt.mpr hge]

/-- A write answers the state with the cell replaced, and only at an address that exists. -/
theorem memWrite_eq_next {addr : Nat} {v : Byte} {s t : State} :
    memWrite addr v s = .next t ↔ addr < s.params.memSize ∧ t = s.setMem (s.mem.write addr v) := by
  by_cases hlt : addr < s.params.memSize
  · simp [memWrite_of_lt hlt, hlt, eq_comm]
  · simp [memWrite_of_ge (Nat.not_lt.mp hlt), hlt]

/-- A write faults exactly at an address that does not exist. -/
theorem memWrite_eq_fault {addr : Nat} {v : Byte} {s : State} {x : Fault} :
    memWrite addr v s = .fault x ↔ s.params.memSize ≤ addr ∧ x = .outOfRangeAddress addr s.pc := by
  by_cases hlt : addr < s.params.memSize
  · simp [memWrite_of_lt hlt, hlt]
  · simp [memWrite_of_ge (Nat.not_lt.mp hlt), Nat.not_lt.mp hlt, eq_comm]

theorem memWrite_ne_refused {addr : Nat} {v : Byte} {s : State} {x : Refusal} : memWrite addr v s ≠ .refused x := by
  by_cases hlt : addr < s.params.memSize
  · simp [memWrite_of_lt hlt]
  · simp [memWrite_of_ge (Nat.not_lt.mp hlt)]

/-! ### Commit -/

/-- The state a commit answers. -/
def State.advance (s : State) (len cost : Nat) : State :=
  { s with pc := s.pc + BitVec.ofNat 16 len, cycles := s.cycles + cost }

@[simp] theorem commit_eq (len cost : Nat) (s : State) : commit len cost s = .next (s.advance len cost) := rfl
@[simp] theorem State.advance_pc (s : State) (len cost : Nat) : (s.advance len cost).pc = s.pc + BitVec.ofNat 16 len := rfl
@[simp] theorem State.advance_sp (s : State) (len cost : Nat) : (s.advance len cost).sp = s.sp := rfl
@[simp] theorem State.advance_flags (s : State) (len cost : Nat) : (s.advance len cost).flags = s.flags := rfl
@[simp] theorem State.advance_cycles (s : State) (len cost : Nat) : (s.advance len cost).cycles = s.cycles + cost := rfl
@[simp] theorem State.advance_mem (s : State) (len cost : Nat) : (s.advance len cost).mem = s.mem := rfl
@[simp] theorem State.advance_params (s : State) (len cost : Nat) : (s.advance len cost).params = s.params := rfl
@[simp] theorem State.advance_get (s : State) (len cost : Nat) (r : Reg) : (s.advance len cost).get r = s.get r := by
  cases r <;> rfl
@[simp] theorem State.advance_peek (s : State) (len cost : Nat) (a : Nat) : (s.advance len cost).peek a = s.peek a := rfl

/-! ### The shared shapes of meanings -/

/-- What `loadByte` answers. -/
theorem loadByte_eq_next {r : Reg} {addr len cost : Nat} {s t : State} :
    loadByte r addr len cost s = .next t ↔
      addr < s.params.memSize ∧ t = (s.set r (s.peek addr)).advance len cost := by
  simp only [loadByte, andThen_eq_next, memRead_eq_next, commit_eq, Host.Outcome.next.injEq]
  constructor
  · rintro ⟨v, ⟨hlt, rfl⟩, rfl⟩; exact ⟨hlt, rfl⟩
  · rintro ⟨hlt, rfl⟩; exact ⟨_, ⟨hlt, rfl⟩, rfl⟩

/-- What `storeByte` answers. -/
theorem storeByte_eq_next {addr : Nat} {v : Byte} {len cost : Nat} {s t : State} :
    storeByte addr v len cost s = .next t ↔
      addr < s.params.memSize ∧ t = (s.setMem (s.mem.write addr v)).advance len cost := by
  simp only [storeByte, andThen_eq_next, memWrite_eq_next, commit_eq, Host.Outcome.next.injEq]
  constructor
  · rintro ⟨u, ⟨hlt, rfl⟩, rfl⟩; exact ⟨hlt, rfl⟩
  · rintro ⟨hlt, rfl⟩; exact ⟨_, ⟨hlt, rfl⟩, rfl⟩

/-- What one push answers: SP one lower, and the byte there. -/
theorem pushToStack_eq_next {v : Byte} {s t : State} :
    pushToStack v s = .next t ↔
      (s.sp - 1#16).toNat < s.params.memSize ∧
        t = (s.setSp (s.sp - 1#16)).setMem (s.mem.write (s.sp - 1#16).toNat v) := by
  simp [pushToStack, memWrite_eq_next]

/-- What two pushes and a commit answer. -/
theorem pushPair_eq_next {hi lo : Byte} {len cost : Nat} {s t : State} :
    pushPair hi lo len cost s = .next t ↔
      (s.sp - 1#16).toNat < s.params.memSize ∧ (s.sp - 1#16 - 1#16).toNat < s.params.memSize ∧
        t = ((s.setSp (s.sp - 1#16 - 1#16)).setMem
          ((s.mem.write (s.sp - 1#16).toNat hi).write (s.sp - 1#16 - 1#16).toNat lo)).advance len cost := by
  simp only [pushPair, andThen_eq_next, pushToStack_eq_next, commit_eq, Host.Outcome.next.injEq]
  constructor
  · rintro ⟨s₁, ⟨h1, rfl⟩, s₂, ⟨h2, rfl⟩, rfl⟩; exact ⟨h1, h2, rfl⟩
  · rintro ⟨h1, h2, rfl⟩; exact ⟨_, ⟨h1, rfl⟩, _, ⟨h2, rfl⟩, rfl⟩

/-! ### Where the shared shapes fault -/

theorem loadByte_of_ge {r : Reg} {addr len cost : Nat} {s : State} (hge : s.params.memSize ≤ addr) :
    loadByte r addr len cost s = .fault (.outOfRangeAddress addr s.pc) := by
  simp [loadByte, memRead_of_ge hge]

theorem storeByte_of_ge {addr len cost : Nat} {v : Byte} {s : State} (hge : s.params.memSize ≤ addr) :
    storeByte addr v len cost s = .fault (.outOfRangeAddress addr s.pc) := by
  simp [storeByte, memWrite_of_ge hge]

theorem pushToStack_of_ge {v : Byte} {s : State} (hge : s.params.memSize ≤ (s.sp - 1#16).toNat) :
    pushToStack v s = .fault (.outOfRangeAddress (s.sp - 1#16).toNat s.pc) :=
  memWrite_of_ge hge

/-- The first of two pushes faults. -/
theorem pushPair_of_ge {hi lo : Byte} {len cost : Nat} {s : State} (hge : s.params.memSize ≤ (s.sp - 1#16).toNat) :
    pushPair hi lo len cost s = .fault (.outOfRangeAddress (s.sp - 1#16).toNat s.pc) := by
  simp only [pushPair, pushToStack_of_ge hge, andThen_fault]

/-- The second of two pushes faults. -/
theorem pushPair_of_ge_second {hi lo : Byte} {len cost : Nat} {s : State} (hlt : (s.sp - 1#16).toNat < s.params.memSize)
    (hge : s.params.memSize ≤ (s.sp - 1#16 - 1#16).toNat) :
    pushPair hi lo len cost s = .fault (.outOfRangeAddress (s.sp - 1#16 - 1#16).toNat s.pc) := by
  rw [pushPair, pushToStack_eq_next.mpr ⟨hlt, rfl⟩, andThen_next, pushToStack_of_ge hge]
  rfl

/-- Two decrements are one by two. -/
theorem sub_one_sub_one (v : Word) : v - 1#16 - 1#16 = v - 2#16 := by bv_omega

end Sys2Proof.Machine
end

