-- ==== Sys2Proof/Laws/Operands.lean ====
section
/-! SUPPORT. Bytes and words, addresses, and the operand helpers. -/

namespace Sys2Proof

theorem pair_toNat (hi lo : Byte) : (pair hi lo).toNat = hi.toNat * 256 + lo.toNat := by
  have hlt := lo.isLt
  rw [pair, BitVec.toNat_append, Nat.shiftLeft_eq, Nat.mul_comm, ← Nat.two_pow_add_eq_or_of_lt hlt]

theorem hiByte_toNat (v : Word) : (hiByte v).toNat = v.toNat / 256 := by
  have hlt := v.isLt
  simp only [hiByte, BitVec.extractLsb'_toNat, Nat.shiftRight_eq_div_pow]
  omega

theorem loByte_toNat (v : Word) : (loByte v).toNat = v.toNat % 256 := by
  simp [loByte, BitVec.extractLsb'_toNat]

/-- A word is its high byte and its low byte. -/
@[simp] theorem pair_hiByte_loByte (v : Word) : pair (hiByte v) (loByte v) = v := by
  apply BitVec.eq_of_toNat_eq
  rw [pair_toNat, hiByte_toNat, loByte_toNat]
  omega

@[simp] theorem hiByte_pair (hi lo : Byte) : hiByte (pair hi lo) = hi := by
  apply BitVec.eq_of_toNat_eq
  have hlt := lo.isLt
  rw [hiByte_toNat, pair_toNat]
  omega

@[simp] theorem loByte_pair (hi lo : Byte) : loByte (pair hi lo) = lo := by
  apply BitVec.eq_of_toNat_eq
  have hlt := lo.isLt
  rw [loByte_toNat, pair_toNat]
  omega

end Sys2Proof

namespace Sys2Proof.Machine

/-- A pair reads back what was written to it, if its registers are two. -/
theorem State.getPair_setPair {hi lo : Reg} (hne : hi ≠ lo) (s : State) (v : Word) : (s.setPair hi lo v).getPair hi lo = v := by
  simp [State.getPair, State.setPair_get, hne]

/-- The byte after the next is two bytes on, under either meaning of an address past 0xFFFF. -/
theorem addrPlus_addrPlus (p : Params) (base : Nat) : addrPlus p (addrPlus p base 1) 1 = addrPlus p base 2 := by
  cases hp : p.addrOverflow <;> simp [addrPlus, hp]

/-- The next byte is another byte. -/
theorem addrPlus_one_ne (p : Params) (base : Nat) (_ : base < 65536) : addrPlus p base 1 ≠ base := by
  cases hp : p.addrOverflow <;> simp only [addrPlus, hp] <;> omega

/-- The byte after the next is another byte. -/
theorem addrPlus_two_ne (p : Params) (base : Nat) (_ : base < 65536) : addrPlus p base 2 ≠ base := by
  cases hp : p.addrOverflow <;> simp only [addrPlus, hp] <;> omega

/-- The next byte and the one after it are two bytes. -/
theorem addrPlus_one_ne_two (p : Params) (base : Nat) : addrPlus p base 1 ≠ addrPlus p base 2 := by
  cases hp : p.addrOverflow <;> simp only [addrPlus, hp] <;> omega

theorem State.instrByteAddr_zero (s : State) : instrByteAddr s 0 = s.pc.toNat := rfl
theorem State.instrByteAddr_succ (s : State) (k : Nat) :
    instrByteAddr s (k + 1) = addrPlus s.params s.pc.toNat (k + 1) := rfl

/-- What `twoByteAddress` answers: both bytes exist, and the first is the low one. -/
theorem twoByteAddress_eq_next {base : Nat} {s : State} {v : Word} :
    twoByteAddress base s = .next v ↔
      base < s.params.memSize ∧ addrPlus s.params base 1 < s.params.memSize ∧
        v = pair (s.peek (addrPlus s.params base 1)) (s.peek base) := by
  simp only [twoByteAddress, andThen_eq_next, memRead_eq_next, Host.Outcome.next.injEq]
  constructor
  · rintro ⟨lo, ⟨h1, rfl⟩, hi, ⟨h2, rfl⟩, rfl⟩; exact ⟨h1, h2, rfl⟩
  · rintro ⟨h1, h2, rfl⟩; exact ⟨_, ⟨h1, rfl⟩, _, ⟨h2, rfl⟩, rfl⟩

/-- The first of the two bytes does not exist. -/
theorem twoByteAddress_of_ge {base : Nat} {s : State} (hge : s.params.memSize ≤ base) :
    twoByteAddress base s = .fault (.outOfRangeAddress base s.pc) := by
  rw [twoByteAddress, memRead_of_ge hge, andThen_fault]

/-- The second of the two bytes does not exist. -/
theorem twoByteAddress_of_ge_second {base : Nat} {s : State} (hlt : base < s.params.memSize)
    (hge : s.params.memSize ≤ addrPlus s.params base 1) :
    twoByteAddress base s = .fault (.outOfRangeAddress (addrPlus s.params base 1) s.pc) := by
  rw [twoByteAddress, memRead_of_lt hlt, andThen_next, memRead_of_ge hge, andThen_fault]

/-! ### HL -/

@[simp] theorem hlAddress_setMem (s : State) (m : Memory) : hlAddress (s.setMem m) = hlAddress s := rfl
@[simp] theorem hlAddress_set_a (s : State) (v : Byte) : hlAddress (s.set .a v) = hlAddress s := rfl
@[simp] theorem hlAddress_advance (s : State) (len cost : Nat) : hlAddress (s.advance len cost) = hlAddress s := rfl
@[simp] theorem hlAddress_incrementHl (s : State) : hlAddress (incrementHl s) = hlAddress s + 1#16 :=
  State.getPair_setPair (by decide) _ _
@[simp] theorem hlAddress_decrementHl (s : State) : hlAddress (decrementHl s) = hlAddress s - 1#16 :=
  State.getPair_setPair (by decide) _ _

/-- Writing HL with the value it has changes nothing. -/
theorem setPair_hlAddress (s : State) : s.setPair .h .l (hlAddress s) = s := by
  change { s with h := hiByte (pair s.h s.l), l := loByte (pair s.h s.l) } = s
  rw [hiByte_pair, loByte_pair]

/-! ### The addresses of an instruction's bytes -/

@[simp] theorem instrByteAddr_setMem (s : State) (m : Memory) (k : Nat) : instrByteAddr (s.setMem m) k = instrByteAddr s k := by
  cases k <;> rfl

end Sys2Proof.Machine
end

