-- ==== Sys2Proof/Laws/Exec.lean ====
section
/-! SUPPORT. The meanings of the classes whose members differ only in a register, as one equation each. -/

namespace Sys2Proof.Machine

/-- Every `LD r,r'`. -/
theorem exec_ldRR (dst src : OpReg) (s : State) :
    exec (.ldRR dst src) s = .next ((s.set dst.reg (s.get src.reg)).advance 1 4) := by
  cases dst <;> cases src <;> rfl

/-- Every `LD r,n`. -/
theorem exec_ldRN (dst : OpReg) (n : Byte) (s : State) : exec (.ldRN dst n) s = .next ((s.set dst.reg n).advance 2 8) := by
  cases dst <;> rfl

/-- Every `LD r,(HL)`. -/
theorem exec_ldRAtHL (dst : OpReg) (s : State) : exec (.ldRAtHL dst) s = loadByte dst.reg (hlAddress s).toNat 1 8 s := by
  cases dst <;> rfl

/-- Every `LD (HL),r`. -/
theorem exec_ldAtHLR (src : OpReg) (s : State) : exec (.ldAtHLR src) s = storeByte (hlAddress s).toNat (s.get src.reg) 1 8 s := by
  cases src <;> rfl

/-- What holds of every class holds of every instruction. -/
theorem Instr.byClass {P : Instr → Prop} (ldRR : ∀ dst src, P (.ldRR dst src)) (ldRN : ∀ dst n, P (.ldRN dst n))
    (ldRAtHL : ∀ dst, P (.ldRAtHL dst)) (ldAtHLR : ∀ src, P (.ldAtHLR src))
    (ldAtHLN : ∀ n, P (.ldAtHLN n)) (ldAtBCA : P .ldAtBCA) (ldAAtBC : P .ldAAtBC) (ldAtDEA : P .ldAtDEA)
    (ldAAtDE : P .ldAAtDE) (ldAtNNA : ∀ nn, P (.ldAtNNA nn)) (ldAAtNN : ∀ nn, P (.ldAAtNN nn))
    (ldIoNA : ∀ n, P (.ldIoNA n)) (ldIoCA : P .ldIoCA) (ldAIoN : ∀ n, P (.ldAIoN n)) (ldAIoC : P .ldAIoC)
    (ldAtHLIncA : P .ldAtHLIncA) (ldAAtHLInc : P .ldAAtHLInc) (ldAtHLDecA : P .ldAtHLDecA)
    (ldAAtHLDec : P .ldAAtHLDec) (ldBCNN : ∀ nn, P (.ldBCNN nn)) (ldDENN : ∀ nn, P (.ldDENN nn))
    (ldHLNN : ∀ nn, P (.ldHLNN nn)) (ldSPNN : ∀ nn, P (.ldSPNN nn)) (ldSPHL : P .ldSPHL)
    (ldHLSPN : ∀ n, P (.ldHLSPN n)) (ldAtNNSP : ∀ nn, P (.ldAtNNSP nn)) (pushBC : P .pushBC) (pushDE : P .pushDE)
    (pushHL : P .pushHL) (pushAF : P .pushAF) :
    ∀ i, P i := by
  intro i
  cases i with
  | ldBB => exact ldRR .b .b
  | ldBC => exact ldRR .b .c
  | ldBD => exact ldRR .b .d
  | ldBE => exact ldRR .b .e
  | ldBH => exact ldRR .b .h
  | ldBL => exact ldRR .b .l
  | ldBA => exact ldRR .b .a
  | ldCB => exact ldRR .c .b
  | ldCC => exact ldRR .c .c
  | ldCD => exact ldRR .c .d
  | ldCE => exact ldRR .c .e
  | ldCH => exact ldRR .c .h
  | ldCL => exact ldRR .c .l
  | ldCA => exact ldRR .c .a
  | ldDB => exact ldRR .d .b
  | ldDC => exact ldRR .d .c
  | ldDD => exact ldRR .d .d
  | ldDE => exact ldRR .d .e
  | ldDH => exact ldRR .d .h
  | ldDL => exact ldRR .d .l
  | ldDA => exact ldRR .d .a
  | ldEB => exact ldRR .e .b
  | ldEC => exact ldRR .e .c
  | ldED => exact ldRR .e .d
  | ldEE => exact ldRR .e .e
  | ldEH => exact ldRR .e .h
  | ldEL => exact ldRR .e .l
  | ldEA => exact ldRR .e .a
  | ldHB => exact ldRR .h .b
  | ldHC => exact ldRR .h .c
  | ldHD => exact ldRR .h .d
  | ldHE => exact ldRR .h .e
  | ldHH => exact ldRR .h .h
  | ldHL => exact ldRR .h .l
  | ldHA => exact ldRR .h .a
  | ldLB => exact ldRR .l .b
  | ldLC => exact ldRR .l .c
  | ldLD => exact ldRR .l .d
  | ldLE => exact ldRR .l .e
  | ldLH => exact ldRR .l .h
  | ldLL => exact ldRR .l .l
  | ldLA => exact ldRR .l .a
  | ldAB => exact ldRR .a .b
  | ldAC => exact ldRR .a .c
  | ldAD => exact ldRR .a .d
  | ldAE => exact ldRR .a .e
  | ldAH => exact ldRR .a .h
  | ldAL => exact ldRR .a .l
  | ldAA => exact ldRR .a .a
  | ldBN n => exact ldRN .b n
  | ldCN n => exact ldRN .c n
  | ldDN n => exact ldRN .d n
  | ldEN n => exact ldRN .e n
  | ldHN n => exact ldRN .h n
  | ldLN n => exact ldRN .l n
  | ldAN n => exact ldRN .a n
  | ldBAtHL => exact ldRAtHL .b
  | ldCAtHL => exact ldRAtHL .c
  | ldDAtHL => exact ldRAtHL .d
  | ldEAtHL => exact ldRAtHL .e
  | ldHAtHL => exact ldRAtHL .h
  | ldLAtHL => exact ldRAtHL .l
  | ldAAtHL => exact ldRAtHL .a
  | ldAtHLB => exact ldAtHLR .b
  | ldAtHLC => exact ldAtHLR .c
  | ldAtHLD => exact ldAtHLR .d
  | ldAtHLE => exact ldAtHLR .e
  | ldAtHLH => exact ldAtHLR .h
  | ldAtHLL => exact ldAtHLR .l
  | ldAtHLA => exact ldAtHLR .a
  | ldAtHLN n => exact ldAtHLN n
  | ldAtBCA => exact ldAtBCA
  | ldAAtBC => exact ldAAtBC
  | ldAtDEA => exact ldAtDEA
  | ldAAtDE => exact ldAAtDE
  | ldAtNNA nn => exact ldAtNNA nn
  | ldAAtNN nn => exact ldAAtNN nn
  | ldIoNA n => exact ldIoNA n
  | ldIoCA => exact ldIoCA
  | ldAIoN n => exact ldAIoN n
  | ldAIoC => exact ldAIoC
  | ldAtHLIncA => exact ldAtHLIncA
  | ldAAtHLInc => exact ldAAtHLInc
  | ldAtHLDecA => exact ldAtHLDecA
  | ldAAtHLDec => exact ldAAtHLDec
  | ldBCNN nn => exact ldBCNN nn
  | ldDENN nn => exact ldDENN nn
  | ldHLNN nn => exact ldHLNN nn
  | ldSPNN nn => exact ldSPNN nn
  | ldSPHL => exact ldSPHL
  | ldHLSPN n => exact ldHLSPN n
  | ldAtNNSP nn => exact ldAtNNSP nn
  | pushBC => exact pushBC
  | pushDE => exact pushDE
  | pushHL => exact pushHL
  | pushAF => exact pushAF

end Sys2Proof.Machine
end

