-- ==== Sys2Proof/Laws/ExecNext.lean ====
section
/-! SUPPORT. What any instruction's next state is, in the terms of Machine/Footprint.lean: the one lemma from which later proofs
start, with no meaning unfolded. -/

namespace Sys2Proof.Machine

/-- `t` is a next state of `s` under the footprint of `i`. -/
structure ExecNext (i : Instr) (s t : State) : Prop where
  get : ∀ r, r ∉ destRegs i → t.get r = s.get r
  sp : writesSp i = false → t.sp = s.sp
  flags : writesFlags i = false → t.flags = s.flags
  params : t.params = s.params
  pc : t.pc = s.pc + BitVec.ofNat 16 i.length
  cycles : t.cycles = s.cycles + i.cost
  mem : t.mem = Memory.writeAll (storesOf i s) s.mem
  addrs : ∀ a ∈ dataAddrs i s, a < s.params.memSize

/-- A meaning that loads a byte. -/
theorem execNext_of_loadByte {i : Instr} {r : Reg} {addr len cost : Nat} {s t : State}
    (h : loadByte r addr len cost s = .next t) (h1 : loadsOf i s = [addr]) (h2 : storesOf i s = []) (h3 : r ∈ destRegs i)
    (hl : len = i.length) (hc : cost = i.cost) : ExecNext i s t := by
  obtain ⟨hlt, rfl⟩ := loadByte_eq_next.mp h
  subst hl hc
  constructor
  case get => intro q hq; rw [State.advance_get, State.set_get_other]; rintro rfl; exact hq h3
  case addrs => simp [dataAddrs, h1, h2, storeAddrs, hlt]
  all_goals simp [h2, Memory.writeAll]

/-- A meaning that stores a byte. -/
theorem execNext_of_storeByte {i : Instr} {v : Byte} {addr len cost : Nat} {s t : State}
    (h : storeByte addr v len cost s = .next t) (h1 : loadsOf i s = []) (h2 : storesOf i s = [(addr, v)])
    (hl : len = i.length) (hc : cost = i.cost) : ExecNext i s t := by
  obtain ⟨hlt, rfl⟩ := storeByte_eq_next.mp h
  subst hl hc
  constructor
  case addrs => simp [dataAddrs, h1, h2, storeAddrs, hlt]
  all_goals simp [h2, Memory.writeAll]

/-- A meaning that pushes two bytes. -/
theorem execNext_of_pushPair {i : Instr} {hi lo : Byte} {len cost : Nat} {s t : State}
    (h : pushPair hi lo len cost s = .next t) (h1 : loadsOf i s = [])
    (h2 : storesOf i s = [((s.sp - 1#16).toNat, hi), ((s.sp - 2#16).toNat, lo)]) (hsp : writesSp i = true)
    (hl : len = i.length) (hc : cost = i.cost) : ExecNext i s t := by
  obtain ⟨hlt, hlt2, rfl⟩ := pushPair_eq_next.mp h
  subst hl hc
  rw [sub_one_sub_one] at *
  constructor
  case addrs =>
    intro a ha
    simp only [dataAddrs, h1, h2, storeAddrs, List.map_cons, List.map_nil, List.nil_append, List.mem_cons, List.not_mem_nil, or_false] at ha
    rcases ha with rfl | rfl <;> assumption
  all_goals simp [h2, Memory.writeAll, hsp]

/-- Whatever an instruction answers, it is a next state of the instruction's footprint. -/
theorem exec_next : ∀ (i : Instr) (s t : State), exec i s = .next t → ExecNext i s t := by
  apply Instr.byClass
  case ldRR =>
    intro dst src s t h; rw [exec_ldRR] at h; cases h
    have h1 : loadsOf (.ldRR dst src) s = [] := by cases dst <;> cases src <;> rfl
    have h2 : storesOf (.ldRR dst src) s = [] := by cases dst <;> cases src <;> rfl
    have h3 : destRegs (.ldRR dst src) = [dst.reg] := by cases dst <;> cases src <;> rfl
    have h4 : (Instr.ldRR dst src).length = 1 := by cases dst <;> cases src <;> rfl
    have h5 : (Instr.ldRR dst src).cost = 4 := by cases dst <;> cases src <;> rfl
    constructor
    case get => intro q hq; rw [State.advance_get, State.set_get_other]; rintro rfl; simp [h3] at hq
    all_goals simp [h2, Memory.writeAll, dataAddrs, h1, storeAddrs, h4, h5]
  case ldRN =>
    intro dst n s t h; rw [exec_ldRN] at h; cases h
    have h1 : loadsOf (.ldRN dst n) s = [] := by cases dst <;> rfl
    have h2 : storesOf (.ldRN dst n) s = [] := by cases dst <;> rfl
    have h3 : destRegs (.ldRN dst n) = [dst.reg] := by cases dst <;> rfl
    have h4 : (Instr.ldRN dst n).length = 2 := by cases dst <;> rfl
    have h5 : (Instr.ldRN dst n).cost = 8 := by cases dst <;> rfl
    constructor
    case get => intro q hq; rw [State.advance_get, State.set_get_other]; rintro rfl; simp [h3] at hq
    all_goals simp [h2, Memory.writeAll, dataAddrs, h1, storeAddrs, h4, h5]
  case ldRAtHL =>
    intro dst s t h; rw [exec_ldRAtHL] at h
    apply execNext_of_loadByte h <;> cases dst <;> first | rfl | decide
  case ldAtHLR =>
    intro src s t h; rw [exec_ldAtHLR] at h
    apply execNext_of_storeByte h <;> cases src <;> rfl
  case ldAtHLN => intro n s t h; exact execNext_of_storeByte h rfl rfl rfl rfl
  case ldAtBCA => intro s t h; exact execNext_of_storeByte h rfl rfl rfl rfl
  case ldAtDEA => intro s t h; exact execNext_of_storeByte h rfl rfl rfl rfl
  case ldAtNNA => intro n s t h; exact execNext_of_storeByte h rfl rfl rfl rfl
  case ldIoNA => intro n s t h; exact execNext_of_storeByte h rfl rfl rfl rfl
  case ldIoCA => intro s t h; exact execNext_of_storeByte h rfl rfl rfl rfl
  case ldAAtBC => intro s t h; exact execNext_of_loadByte h rfl rfl (by simp [destRegs]) rfl rfl
  case ldAAtDE => intro s t h; exact execNext_of_loadByte h rfl rfl (by simp [destRegs]) rfl rfl
  case ldAAtNN => intro n s t h; exact execNext_of_loadByte h rfl rfl (by simp [destRegs]) rfl rfl
  case ldAIoN => intro n s t h; exact execNext_of_loadByte h rfl rfl (by simp [destRegs]) rfl rfl
  case ldAIoC => intro s t h; exact execNext_of_loadByte h rfl rfl (by simp [destRegs]) rfl rfl
  case ldAtHLIncA =>
    intro s t h
    simp only [exec, execLdAtHLIncA, andThen_eq_next, memWrite_eq_next, commit_eq] at h
    obtain ⟨_, ⟨hlt, rfl⟩, h⟩ := h; cases h
    constructor
    case get => intro q hq; simp [destRegs] at hq; simp [incrementHl_get_other _ hq.1 hq.2]
    case pc => rfl
    case cycles => rfl
    all_goals simp [Memory.writeAll, dataAddrs, loadsOf, storeAddrs, storesOf, hlt]
  case ldAtHLDecA =>
    intro s t h
    simp only [exec, execLdAtHLDecA, andThen_eq_next, memWrite_eq_next, commit_eq] at h
    obtain ⟨_, ⟨hlt, rfl⟩, h⟩ := h; cases h
    constructor
    case get => intro q hq; simp [destRegs] at hq; simp [decrementHl_get_other _ hq.1 hq.2]
    case pc => rfl
    case cycles => rfl
    all_goals simp [Memory.writeAll, dataAddrs, loadsOf, storeAddrs, storesOf, hlt]
  case ldAAtHLInc =>
    intro s t h
    simp only [exec, execLdAAtHLInc, andThen_eq_next, memRead_eq_next, commit_eq] at h
    obtain ⟨_, ⟨hlt, rfl⟩, h⟩ := h; cases h
    constructor
    case get => intro q hq; simp [destRegs] at hq; simp [incrementHl_get_other _ hq.2.1 hq.2.2, State.set_get_other _ _ hq.1]
    case pc => rfl
    case cycles => rfl
    all_goals simp [Memory.writeAll, dataAddrs, loadsOf, storeAddrs, storesOf, hlt]
  case ldAAtHLDec =>
    intro s t h
    simp only [exec, execLdAAtHLDec, andThen_eq_next, memRead_eq_next, commit_eq] at h
    obtain ⟨_, ⟨hlt, rfl⟩, h⟩ := h; cases h
    constructor
    case get => intro q hq; simp [destRegs] at hq; simp [decrementHl_get_other _ hq.2.1 hq.2.2, State.set_get_other _ _ hq.1]
    case pc => rfl
    case cycles => rfl
    all_goals simp [Memory.writeAll, dataAddrs, loadsOf, storeAddrs, storesOf, hlt]
  case ldBCNN =>
    intro nn s t h; simp only [exec, execLdBCNN, commit_eq] at h; cases h
    constructor
    case get => intro q hq; simp [destRegs] at hq; simp [State.setPair_get, hq.1, hq.2]
    case pc => rfl
    case cycles => rfl
    all_goals simp [Memory.writeAll, dataAddrs, loadsOf, storeAddrs, storesOf]
  case ldDENN =>
    intro nn s t h; simp only [exec, execLdDENN, commit_eq] at h; cases h
    constructor
    case get => intro q hq; simp [destRegs] at hq; simp [State.setPair_get, hq.1, hq.2]
    case pc => rfl
    case cycles => rfl
    all_goals simp [Memory.writeAll, dataAddrs, loadsOf, storeAddrs, storesOf]
  case ldHLNN =>
    intro nn s t h; simp only [exec, execLdHLNN, commit_eq] at h; cases h
    constructor
    case get => intro q hq; simp [destRegs] at hq; simp [State.setPair_get, hq.1, hq.2]
    case pc => rfl
    case cycles => rfl
    all_goals simp [Memory.writeAll, dataAddrs, loadsOf, storeAddrs, storesOf]
  case ldSPNN =>
    intro nn s t h; simp only [exec, execLdSPNN, commit_eq] at h; cases h
    constructor
    case pc => rfl
    case cycles => rfl
    all_goals simp [Memory.writeAll, dataAddrs, loadsOf, storeAddrs, storesOf, writesSp]
  case ldSPHL =>
    intro s t h; simp only [exec, execLdSPHL, commit_eq] at h; cases h
    constructor
    case pc => rfl
    case cycles => rfl
    all_goals simp [Memory.writeAll, dataAddrs, loadsOf, storeAddrs, storesOf, writesSp]
  case ldHLSPN =>
    intro nn s t h; simp only [exec, execLdHLSPN, commit_eq] at h; cases h
    constructor
    case get => intro q hq; simp [destRegs] at hq; simp [State.setPair_get, hq.1, hq.2]
    case pc => rfl
    case cycles => rfl
    all_goals simp [Memory.writeAll, dataAddrs, loadsOf, storeAddrs, storesOf, writesFlags]
  case ldAtNNSP =>
    intro nn s t h; simp only [exec, execLdAtNNSP, andThen_eq_next, memWrite_eq_next, commit_eq] at h
    obtain ⟨_, ⟨hlt, rfl⟩, _, ⟨hlt2, rfl⟩, h⟩ := h; cases h
    constructor
    case pc => rfl
    case cycles => rfl
    all_goals simp [Memory.writeAll, dataAddrs, loadsOf, storeAddrs, storesOf, hlt]
    simpa using hlt2
  case pushBC => intro s t h; exact execNext_of_pushPair h rfl rfl rfl rfl rfl
  case pushDE => intro s t h; exact execNext_of_pushPair h rfl rfl rfl rfl rfl
  case pushHL => intro s t h; exact execNext_of_pushPair h rfl rfl rfl rfl rfl
  case pushAF => intro s t h; exact execNext_of_pushPair h rfl rfl rfl rfl rfl


end Sys2Proof.Machine
end

