-- ==== Sys2Proof/Laws/Fetch.lean ====
section
/-! SUPPORT. Everything the fetch can end in, and the state with a program word placed at PC. -/

namespace Sys2Proof.Machine

/-- With the opcode byte fetched, the operand fetch answers an instruction, or misses the first operand byte that does not exist. -/
theorem fetchOperands_cases (form : Form) (s : State) :
    (∃ i, fetchOperands form s = .next i) ∨
    (s.params.memSize ≤ instrByteAddr s 1 ∧ fetchOperands form s = .fault (.outOfRangeAddress (instrByteAddr s 1) s.pc)) ∨
    (instrByteAddr s 1 < s.params.memSize ∧ s.params.memSize ≤ instrByteAddr s 2 ∧
      fetchOperands form s = .fault (.outOfRangeAddress (instrByteAddr s 2) s.pc)) := by
  have hnext : addrPlus s.params (instrByteAddr s 1) 1 = instrByteAddr s 2 := addrPlus_addrPlus _ _
  cases form with
  | f1 i => exact .inl ⟨i, rfl⟩
  | f2 mk =>
    change (∃ i, andThen (memRead (instrByteAddr s 1) s) _ = .next i) ∨ (_ ∧ andThen (memRead (instrByteAddr s 1) s) _ = _) ∨ _
    by_cases h1 : s.params.memSize ≤ instrByteAddr s 1
    · exact .inr (.inl ⟨h1, by rw [memRead_of_ge h1, andThen_fault]⟩)
    · exact .inl ⟨_, by rw [memRead_of_lt (Nat.lt_of_not_le h1), andThen_next]⟩
  | f3 mk =>
    change (∃ i, andThen (twoByteAddress (instrByteAddr s 1) s) _ = .next i) ∨
      (_ ∧ andThen (twoByteAddress (instrByteAddr s 1) s) _ = _) ∨ (_ ∧ _ ∧ andThen (twoByteAddress (instrByteAddr s 1) s) _ = _)
    by_cases h1 : s.params.memSize ≤ instrByteAddr s 1
    · exact .inr (.inl ⟨h1, by rw [twoByteAddress_of_ge h1, andThen_fault]⟩)
    have h1' := Nat.lt_of_not_le h1
    by_cases h2 : s.params.memSize ≤ instrByteAddr s 2
    · exact .inr (.inr ⟨h1', h2, by rw [twoByteAddress_of_ge_second h1' (by rwa [hnext]), andThen_fault, hnext]⟩)
    · exact .inl ⟨_, by
        rw [twoByteAddress_eq_next.mpr ⟨h1', by rw [hnext]; exact Nat.lt_of_not_le h2, rfl⟩, andThen_next]⟩

/-- The fetch misses the opcode byte, or rejects it, or is the operand fetch of its row. -/
theorem fetchInstr_cases (s : State) :
    (s.params.memSize ≤ s.pc.toNat ∧ fetchInstr s = .fault (.outOfRangeAddress s.pc.toNat s.pc)) ∨
    (s.pc.toNat < s.params.memSize ∧ rowOf (s.peek s.pc.toNat) = none ∧
      fetchInstr s = .fault (.unimplementedOpcode (s.peek s.pc.toNat) s.pc)) ∨
    ∃ r, s.pc.toNat < s.params.memSize ∧ rowOf (s.peek s.pc.toNat) = some r ∧ fetchInstr s = fetchOperands r.form s := by
  by_cases h0 : s.params.memSize ≤ s.pc.toNat
  · exact .inl ⟨h0, by rw [fetchInstr, memRead_of_ge h0, andThen_fault]⟩
  have h0' := Nat.lt_of_not_le h0
  rw [fetchInstr, memRead_of_lt h0', andThen_next, fetchDecoded]
  cases rowOf (s.peek s.pc.toNat) with
  | none => exact .inr (.inl ⟨h0', rfl, rfl⟩)
  | some r => exact .inr (.inr ⟨r, h0', rfl, rfl⟩)

/-- Three bytes placed at PC, where all three exist. -/
theorem placeBytes_three (s : State) (x y z : Byte) (hall : ∀ k, k < 3 → instrByteAddr s k < s.params.memSize) :
    placeBytes 0 [x, y, z] s =
      s.setMem (((s.mem.write (instrByteAddr s 0) x).write (instrByteAddr s 1) y).write (instrByteAddr s 2) z) := by
  have h0 := hall 0 (by decide)
  have h1 := hall 1 (by decide)
  have h2 := hall 2 (by decide)
  simp [placeBytes, h0, h1, h2]
  rfl

end Sys2Proof.Machine
end

