-- ==== Sys2Proof/Laws/PerInstr.lean ====
section
/-! SUPPORT. Facts about every instruction as syntax, one lemma for each constructor. -/

namespace Sys2Proof.Laws.TableRow

/-- The decode table has a row under the instruction's opcode, with the instruction's length and cost, and that opcode is
not one of the 160 illegal bytes (30_encoding.md R155, R157). -/
def Statement (i : Instr) : Prop :=
  (∃ r, rowOf i.opcode = some r ∧ r.opcode = i.opcode ∧ r.form.length = i.length ∧ r.cost = i.cost) ∧
    legalOpcode i.opcode = true

theorem ldBCNN (nn : Word) : Statement (.ldBCNN nn) := ⟨⟨_, rfl, rfl, rfl, rfl⟩, rfl⟩
theorem ldAtBCA : Statement .ldAtBCA := ⟨⟨_, rfl, rfl, rfl, rfl⟩, rfl⟩
theorem ldBN (n : Byte) : Statement (.ldBN n) := ⟨⟨_, rfl, rfl, rfl, rfl⟩, rfl⟩
theorem ldAtNNSP (nn : Word) : Statement (.ldAtNNSP nn) := ⟨⟨_, rfl, rfl, rfl, rfl⟩, rfl⟩
theorem ldAAtBC : Statement .ldAAtBC := ⟨⟨_, rfl, rfl, rfl, rfl⟩, rfl⟩
theorem ldCN (n : Byte) : Statement (.ldCN n) := ⟨⟨_, rfl, rfl, rfl, rfl⟩, rfl⟩
theorem ldDENN (nn : Word) : Statement (.ldDENN nn) := ⟨⟨_, rfl, rfl, rfl, rfl⟩, rfl⟩
theorem ldAtDEA : Statement .ldAtDEA := ⟨⟨_, rfl, rfl, rfl, rfl⟩, rfl⟩
theorem ldDN (n : Byte) : Statement (.ldDN n) := ⟨⟨_, rfl, rfl, rfl, rfl⟩, rfl⟩
theorem ldAAtDE : Statement .ldAAtDE := ⟨⟨_, rfl, rfl, rfl, rfl⟩, rfl⟩
theorem ldEN (n : Byte) : Statement (.ldEN n) := ⟨⟨_, rfl, rfl, rfl, rfl⟩, rfl⟩
theorem ldHLNN (nn : Word) : Statement (.ldHLNN nn) := ⟨⟨_, rfl, rfl, rfl, rfl⟩, rfl⟩
theorem ldAtHLIncA : Statement .ldAtHLIncA := ⟨⟨_, rfl, rfl, rfl, rfl⟩, rfl⟩
theorem ldHN (n : Byte) : Statement (.ldHN n) := ⟨⟨_, rfl, rfl, rfl, rfl⟩, rfl⟩
theorem ldAAtHLInc : Statement .ldAAtHLInc := ⟨⟨_, rfl, rfl, rfl, rfl⟩, rfl⟩
theorem ldLN (n : Byte) : Statement (.ldLN n) := ⟨⟨_, rfl, rfl, rfl, rfl⟩, rfl⟩
theorem ldSPNN (nn : Word) : Statement (.ldSPNN nn) := ⟨⟨_, rfl, rfl, rfl, rfl⟩, rfl⟩
theorem ldAtHLDecA : Statement .ldAtHLDecA := ⟨⟨_, rfl, rfl, rfl, rfl⟩, rfl⟩
theorem ldAtHLN (n : Byte) : Statement (.ldAtHLN n) := ⟨⟨_, rfl, rfl, rfl, rfl⟩, rfl⟩
theorem ldAAtHLDec : Statement .ldAAtHLDec := ⟨⟨_, rfl, rfl, rfl, rfl⟩, rfl⟩
theorem ldAN (n : Byte) : Statement (.ldAN n) := ⟨⟨_, rfl, rfl, rfl, rfl⟩, rfl⟩
theorem ldBB : Statement .ldBB := ⟨⟨_, rfl, rfl, rfl, rfl⟩, rfl⟩
theorem ldBC : Statement .ldBC := ⟨⟨_, rfl, rfl, rfl, rfl⟩, rfl⟩
theorem ldBD : Statement .ldBD := ⟨⟨_, rfl, rfl, rfl, rfl⟩, rfl⟩
theorem ldBE : Statement .ldBE := ⟨⟨_, rfl, rfl, rfl, rfl⟩, rfl⟩
theorem ldBH : Statement .ldBH := ⟨⟨_, rfl, rfl, rfl, rfl⟩, rfl⟩
theorem ldBL : Statement .ldBL := ⟨⟨_, rfl, rfl, rfl, rfl⟩, rfl⟩
theorem ldBAtHL : Statement .ldBAtHL := ⟨⟨_, rfl, rfl, rfl, rfl⟩, rfl⟩
theorem ldBA : Statement .ldBA := ⟨⟨_, rfl, rfl, rfl, rfl⟩, rfl⟩
theorem ldCB : Statement .ldCB := ⟨⟨_, rfl, rfl, rfl, rfl⟩, rfl⟩
theorem ldCC : Statement .ldCC := ⟨⟨_, rfl, rfl, rfl, rfl⟩, rfl⟩
theorem ldCD : Statement .ldCD := ⟨⟨_, rfl, rfl, rfl, rfl⟩, rfl⟩
theorem ldCE : Statement .ldCE := ⟨⟨_, rfl, rfl, rfl, rfl⟩, rfl⟩
theorem ldCH : Statement .ldCH := ⟨⟨_, rfl, rfl, rfl, rfl⟩, rfl⟩
theorem ldCL : Statement .ldCL := ⟨⟨_, rfl, rfl, rfl, rfl⟩, rfl⟩
theorem ldCAtHL : Statement .ldCAtHL := ⟨⟨_, rfl, rfl, rfl, rfl⟩, rfl⟩
theorem ldCA : Statement .ldCA := ⟨⟨_, rfl, rfl, rfl, rfl⟩, rfl⟩
theorem ldDB : Statement .ldDB := ⟨⟨_, rfl, rfl, rfl, rfl⟩, rfl⟩
theorem ldDC : Statement .ldDC := ⟨⟨_, rfl, rfl, rfl, rfl⟩, rfl⟩
theorem ldDD : Statement .ldDD := ⟨⟨_, rfl, rfl, rfl, rfl⟩, rfl⟩
theorem ldDE : Statement .ldDE := ⟨⟨_, rfl, rfl, rfl, rfl⟩, rfl⟩
theorem ldDH : Statement .ldDH := ⟨⟨_, rfl, rfl, rfl, rfl⟩, rfl⟩
theorem ldDL : Statement .ldDL := ⟨⟨_, rfl, rfl, rfl, rfl⟩, rfl⟩
theorem ldDAtHL : Statement .ldDAtHL := ⟨⟨_, rfl, rfl, rfl, rfl⟩, rfl⟩
theorem ldDA : Statement .ldDA := ⟨⟨_, rfl, rfl, rfl, rfl⟩, rfl⟩
theorem ldEB : Statement .ldEB := ⟨⟨_, rfl, rfl, rfl, rfl⟩, rfl⟩
theorem ldEC : Statement .ldEC := ⟨⟨_, rfl, rfl, rfl, rfl⟩, rfl⟩
theorem ldED : Statement .ldED := ⟨⟨_, rfl, rfl, rfl, rfl⟩, rfl⟩
theorem ldEE : Statement .ldEE := ⟨⟨_, rfl, rfl, rfl, rfl⟩, rfl⟩
theorem ldEH : Statement .ldEH := ⟨⟨_, rfl, rfl, rfl, rfl⟩, rfl⟩
theorem ldEL : Statement .ldEL := ⟨⟨_, rfl, rfl, rfl, rfl⟩, rfl⟩
theorem ldEAtHL : Statement .ldEAtHL := ⟨⟨_, rfl, rfl, rfl, rfl⟩, rfl⟩
theorem ldEA : Statement .ldEA := ⟨⟨_, rfl, rfl, rfl, rfl⟩, rfl⟩
theorem ldHB : Statement .ldHB := ⟨⟨_, rfl, rfl, rfl, rfl⟩, rfl⟩
theorem ldHC : Statement .ldHC := ⟨⟨_, rfl, rfl, rfl, rfl⟩, rfl⟩
theorem ldHD : Statement .ldHD := ⟨⟨_, rfl, rfl, rfl, rfl⟩, rfl⟩
theorem ldHE : Statement .ldHE := ⟨⟨_, rfl, rfl, rfl, rfl⟩, rfl⟩
theorem ldHH : Statement .ldHH := ⟨⟨_, rfl, rfl, rfl, rfl⟩, rfl⟩
theorem ldHL : Statement .ldHL := ⟨⟨_, rfl, rfl, rfl, rfl⟩, rfl⟩
theorem ldHAtHL : Statement .ldHAtHL := ⟨⟨_, rfl, rfl, rfl, rfl⟩, rfl⟩
theorem ldHA : Statement .ldHA := ⟨⟨_, rfl, rfl, rfl, rfl⟩, rfl⟩
theorem ldLB : Statement .ldLB := ⟨⟨_, rfl, rfl, rfl, rfl⟩, rfl⟩
theorem ldLC : Statement .ldLC := ⟨⟨_, rfl, rfl, rfl, rfl⟩, rfl⟩
theorem ldLD : Statement .ldLD := ⟨⟨_, rfl, rfl, rfl, rfl⟩, rfl⟩
theorem ldLE : Statement .ldLE := ⟨⟨_, rfl, rfl, rfl, rfl⟩, rfl⟩
theorem ldLH : Statement .ldLH := ⟨⟨_, rfl, rfl, rfl, rfl⟩, rfl⟩
theorem ldLL : Statement .ldLL := ⟨⟨_, rfl, rfl, rfl, rfl⟩, rfl⟩
theorem ldLAtHL : Statement .ldLAtHL := ⟨⟨_, rfl, rfl, rfl, rfl⟩, rfl⟩
theorem ldLA : Statement .ldLA := ⟨⟨_, rfl, rfl, rfl, rfl⟩, rfl⟩
theorem ldAtHLB : Statement .ldAtHLB := ⟨⟨_, rfl, rfl, rfl, rfl⟩, rfl⟩
theorem ldAtHLC : Statement .ldAtHLC := ⟨⟨_, rfl, rfl, rfl, rfl⟩, rfl⟩
theorem ldAtHLD : Statement .ldAtHLD := ⟨⟨_, rfl, rfl, rfl, rfl⟩, rfl⟩
theorem ldAtHLE : Statement .ldAtHLE := ⟨⟨_, rfl, rfl, rfl, rfl⟩, rfl⟩
theorem ldAtHLH : Statement .ldAtHLH := ⟨⟨_, rfl, rfl, rfl, rfl⟩, rfl⟩
theorem ldAtHLL : Statement .ldAtHLL := ⟨⟨_, rfl, rfl, rfl, rfl⟩, rfl⟩
theorem ldAtHLA : Statement .ldAtHLA := ⟨⟨_, rfl, rfl, rfl, rfl⟩, rfl⟩
theorem ldAB : Statement .ldAB := ⟨⟨_, rfl, rfl, rfl, rfl⟩, rfl⟩
theorem ldAC : Statement .ldAC := ⟨⟨_, rfl, rfl, rfl, rfl⟩, rfl⟩
theorem ldAD : Statement .ldAD := ⟨⟨_, rfl, rfl, rfl, rfl⟩, rfl⟩
theorem ldAE : Statement .ldAE := ⟨⟨_, rfl, rfl, rfl, rfl⟩, rfl⟩
theorem ldAH : Statement .ldAH := ⟨⟨_, rfl, rfl, rfl, rfl⟩, rfl⟩
theorem ldAL : Statement .ldAL := ⟨⟨_, rfl, rfl, rfl, rfl⟩, rfl⟩
theorem ldAAtHL : Statement .ldAAtHL := ⟨⟨_, rfl, rfl, rfl, rfl⟩, rfl⟩
theorem ldAA : Statement .ldAA := ⟨⟨_, rfl, rfl, rfl, rfl⟩, rfl⟩
theorem pushBC : Statement .pushBC := ⟨⟨_, rfl, rfl, rfl, rfl⟩, rfl⟩
theorem pushDE : Statement .pushDE := ⟨⟨_, rfl, rfl, rfl, rfl⟩, rfl⟩
theorem ldIoNA (n : Byte) : Statement (.ldIoNA n) := ⟨⟨_, rfl, rfl, rfl, rfl⟩, rfl⟩
theorem ldIoCA : Statement .ldIoCA := ⟨⟨_, rfl, rfl, rfl, rfl⟩, rfl⟩
theorem pushHL : Statement .pushHL := ⟨⟨_, rfl, rfl, rfl, rfl⟩, rfl⟩
theorem ldAtNNA (nn : Word) : Statement (.ldAtNNA nn) := ⟨⟨_, rfl, rfl, rfl, rfl⟩, rfl⟩
theorem ldAIoN (n : Byte) : Statement (.ldAIoN n) := ⟨⟨_, rfl, rfl, rfl, rfl⟩, rfl⟩
theorem ldAIoC : Statement .ldAIoC := ⟨⟨_, rfl, rfl, rfl, rfl⟩, rfl⟩
theorem pushAF : Statement .pushAF := ⟨⟨_, rfl, rfl, rfl, rfl⟩, rfl⟩
theorem ldHLSPN (n : Byte) : Statement (.ldHLSPN n) := ⟨⟨_, rfl, rfl, rfl, rfl⟩, rfl⟩
theorem ldSPHL : Statement .ldSPHL := ⟨⟨_, rfl, rfl, rfl, rfl⟩, rfl⟩
theorem ldAAtNN (nn : Word) : Statement (.ldAAtNN nn) := ⟨⟨_, rfl, rfl, rfl, rfl⟩, rfl⟩

end Sys2Proof.Laws.TableRow

namespace Sys2Proof.Laws.Encoded

/-- The instruction's encoding is one well-formed instruction in bytes: a legal opcode and the operand bytes its format
asks for (30_encoding.md R150, R151). -/
def Statement (i : Instr) : Prop := wellFormedBytes (encode i) = true ∧ (encode i).length = i.length

theorem ldBCNN (nn : Word) : Statement (.ldBCNN nn) := ⟨rfl, rfl⟩
theorem ldAtBCA : Statement .ldAtBCA := ⟨rfl, rfl⟩
theorem ldBN (n : Byte) : Statement (.ldBN n) := ⟨rfl, rfl⟩
theorem ldAtNNSP (nn : Word) : Statement (.ldAtNNSP nn) := ⟨rfl, rfl⟩
theorem ldAAtBC : Statement .ldAAtBC := ⟨rfl, rfl⟩
theorem ldCN (n : Byte) : Statement (.ldCN n) := ⟨rfl, rfl⟩
theorem ldDENN (nn : Word) : Statement (.ldDENN nn) := ⟨rfl, rfl⟩
theorem ldAtDEA : Statement .ldAtDEA := ⟨rfl, rfl⟩
theorem ldDN (n : Byte) : Statement (.ldDN n) := ⟨rfl, rfl⟩
theorem ldAAtDE : Statement .ldAAtDE := ⟨rfl, rfl⟩
theorem ldEN (n : Byte) : Statement (.ldEN n) := ⟨rfl, rfl⟩
theorem ldHLNN (nn : Word) : Statement (.ldHLNN nn) := ⟨rfl, rfl⟩
theorem ldAtHLIncA : Statement .ldAtHLIncA := ⟨rfl, rfl⟩
theorem ldHN (n : Byte) : Statement (.ldHN n) := ⟨rfl, rfl⟩
theorem ldAAtHLInc : Statement .ldAAtHLInc := ⟨rfl, rfl⟩
theorem ldLN (n : Byte) : Statement (.ldLN n) := ⟨rfl, rfl⟩
theorem ldSPNN (nn : Word) : Statement (.ldSPNN nn) := ⟨rfl, rfl⟩
theorem ldAtHLDecA : Statement .ldAtHLDecA := ⟨rfl, rfl⟩
theorem ldAtHLN (n : Byte) : Statement (.ldAtHLN n) := ⟨rfl, rfl⟩
theorem ldAAtHLDec : Statement .ldAAtHLDec := ⟨rfl, rfl⟩
theorem ldAN (n : Byte) : Statement (.ldAN n) := ⟨rfl, rfl⟩
theorem ldBB : Statement .ldBB := ⟨rfl, rfl⟩
theorem ldBC : Statement .ldBC := ⟨rfl, rfl⟩
theorem ldBD : Statement .ldBD := ⟨rfl, rfl⟩
theorem ldBE : Statement .ldBE := ⟨rfl, rfl⟩
theorem ldBH : Statement .ldBH := ⟨rfl, rfl⟩
theorem ldBL : Statement .ldBL := ⟨rfl, rfl⟩
theorem ldBAtHL : Statement .ldBAtHL := ⟨rfl, rfl⟩
theorem ldBA : Statement .ldBA := ⟨rfl, rfl⟩
theorem ldCB : Statement .ldCB := ⟨rfl, rfl⟩
theorem ldCC : Statement .ldCC := ⟨rfl, rfl⟩
theorem ldCD : Statement .ldCD := ⟨rfl, rfl⟩
theorem ldCE : Statement .ldCE := ⟨rfl, rfl⟩
theorem ldCH : Statement .ldCH := ⟨rfl, rfl⟩
theorem ldCL : Statement .ldCL := ⟨rfl, rfl⟩
theorem ldCAtHL : Statement .ldCAtHL := ⟨rfl, rfl⟩
theorem ldCA : Statement .ldCA := ⟨rfl, rfl⟩
theorem ldDB : Statement .ldDB := ⟨rfl, rfl⟩
theorem ldDC : Statement .ldDC := ⟨rfl, rfl⟩
theorem ldDD : Statement .ldDD := ⟨rfl, rfl⟩
theorem ldDE : Statement .ldDE := ⟨rfl, rfl⟩
theorem ldDH : Statement .ldDH := ⟨rfl, rfl⟩
theorem ldDL : Statement .ldDL := ⟨rfl, rfl⟩
theorem ldDAtHL : Statement .ldDAtHL := ⟨rfl, rfl⟩
theorem ldDA : Statement .ldDA := ⟨rfl, rfl⟩
theorem ldEB : Statement .ldEB := ⟨rfl, rfl⟩
theorem ldEC : Statement .ldEC := ⟨rfl, rfl⟩
theorem ldED : Statement .ldED := ⟨rfl, rfl⟩
theorem ldEE : Statement .ldEE := ⟨rfl, rfl⟩
theorem ldEH : Statement .ldEH := ⟨rfl, rfl⟩
theorem ldEL : Statement .ldEL := ⟨rfl, rfl⟩
theorem ldEAtHL : Statement .ldEAtHL := ⟨rfl, rfl⟩
theorem ldEA : Statement .ldEA := ⟨rfl, rfl⟩
theorem ldHB : Statement .ldHB := ⟨rfl, rfl⟩
theorem ldHC : Statement .ldHC := ⟨rfl, rfl⟩
theorem ldHD : Statement .ldHD := ⟨rfl, rfl⟩
theorem ldHE : Statement .ldHE := ⟨rfl, rfl⟩
theorem ldHH : Statement .ldHH := ⟨rfl, rfl⟩
theorem ldHL : Statement .ldHL := ⟨rfl, rfl⟩
theorem ldHAtHL : Statement .ldHAtHL := ⟨rfl, rfl⟩
theorem ldHA : Statement .ldHA := ⟨rfl, rfl⟩
theorem ldLB : Statement .ldLB := ⟨rfl, rfl⟩
theorem ldLC : Statement .ldLC := ⟨rfl, rfl⟩
theorem ldLD : Statement .ldLD := ⟨rfl, rfl⟩
theorem ldLE : Statement .ldLE := ⟨rfl, rfl⟩
theorem ldLH : Statement .ldLH := ⟨rfl, rfl⟩
theorem ldLL : Statement .ldLL := ⟨rfl, rfl⟩
theorem ldLAtHL : Statement .ldLAtHL := ⟨rfl, rfl⟩
theorem ldLA : Statement .ldLA := ⟨rfl, rfl⟩
theorem ldAtHLB : Statement .ldAtHLB := ⟨rfl, rfl⟩
theorem ldAtHLC : Statement .ldAtHLC := ⟨rfl, rfl⟩
theorem ldAtHLD : Statement .ldAtHLD := ⟨rfl, rfl⟩
theorem ldAtHLE : Statement .ldAtHLE := ⟨rfl, rfl⟩
theorem ldAtHLH : Statement .ldAtHLH := ⟨rfl, rfl⟩
theorem ldAtHLL : Statement .ldAtHLL := ⟨rfl, rfl⟩
theorem ldAtHLA : Statement .ldAtHLA := ⟨rfl, rfl⟩
theorem ldAB : Statement .ldAB := ⟨rfl, rfl⟩
theorem ldAC : Statement .ldAC := ⟨rfl, rfl⟩
theorem ldAD : Statement .ldAD := ⟨rfl, rfl⟩
theorem ldAE : Statement .ldAE := ⟨rfl, rfl⟩
theorem ldAH : Statement .ldAH := ⟨rfl, rfl⟩
theorem ldAL : Statement .ldAL := ⟨rfl, rfl⟩
theorem ldAAtHL : Statement .ldAAtHL := ⟨rfl, rfl⟩
theorem ldAA : Statement .ldAA := ⟨rfl, rfl⟩
theorem pushBC : Statement .pushBC := ⟨rfl, rfl⟩
theorem pushDE : Statement .pushDE := ⟨rfl, rfl⟩
theorem ldIoNA (n : Byte) : Statement (.ldIoNA n) := ⟨rfl, rfl⟩
theorem ldIoCA : Statement .ldIoCA := ⟨rfl, rfl⟩
theorem pushHL : Statement .pushHL := ⟨rfl, rfl⟩
theorem ldAtNNA (nn : Word) : Statement (.ldAtNNA nn) := ⟨rfl, rfl⟩
theorem ldAIoN (n : Byte) : Statement (.ldAIoN n) := ⟨rfl, rfl⟩
theorem ldAIoC : Statement .ldAIoC := ⟨rfl, rfl⟩
theorem pushAF : Statement .pushAF := ⟨rfl, rfl⟩
theorem ldHLSPN (n : Byte) : Statement (.ldHLSPN n) := ⟨rfl, rfl⟩
theorem ldSPHL : Statement .ldSPHL := ⟨rfl, rfl⟩
theorem ldAAtNN (nn : Word) : Statement (.ldAAtNN nn) := ⟨rfl, rfl⟩

end Sys2Proof.Laws.Encoded
end

