-- ==== Sys2Proof/Tests/Slice0.lean ====
section
/-! SUPPORT. The model's own tests. Words are written out bit by bit from the encodings of 30_encoding.md R155 and opcode_table.json; the steps
are the worked examples W and the vectors V of 95_test_vectors.md; the witnesses show that the hypotheses of the statements can be met. -/

namespace Sys2Proof.Tests

open Sys2Proof.Machine Sys2Proof.Claims

/-! ### Helpers -/

/-- The state T0 of 95_test_vectors.md, section 2, on a memory of the given size, with the given meaning of addresses past 0xFFFF. -/
def t0With (size : Nat) (o : AddrOverflow) : State :=
  { State.construct { Params.default with memSize := size, addrOverflow := o } with
    a := 0x0A#8, b := 0x0B#8, c := 0x0C#8, d := 0x0D#8, e := 0x0E#8, h := 0xC0#8, l := 0x12#8
    sp := 0xFFF0#16, pc := 0x0100#16, cycles := 100
    mem := [(0x0B0C, 0xBC#8), (0x0D0E, 0xDE#8), (0xC012, 0x5A#8), (0xC234, 0x42#8), (0xFF0C, 0x77#8), (0xFF80, 0x81#8)].filter
      fun cell => decide (cell.1 < size) }

/-- T0 under the default parameters. -/
def t0 : State := t0With 65536 .fault

/-- One more byte in memory. -/
def poke (a : Nat) (v : Byte) (s : State) : State := s.setMem (s.mem.write a v)

/-- A step goes from `s` to the state that `f` makes of `s`: what `f` does not name is unchanged. -/
def goesTo (s : State) (f : State → State) : Bool :=
  match step s with
  | .next t => decide (t = f s)
  | .fault _ => false
  | .refused _ => false

/-- A step ends in this fault, and the caller keeps the state. -/
def stopsWith (s : State) (x : Fault) : Bool := decide (callStep s = ⟨s, some (.fault x)⟩)

/-- An outcome is a next state. -/
def answers (r : Result State) : Bool :=
  match r with
  | .next _ => true
  | .fault _ => false
  | .refused _ => false

/-! ### Decoding words written out from the encodings -/

theorem test_decode_ld_b_r :
    [ decode [0b01000000#8]
    , decode [0b01000001#8]
    , decode [0b01000010#8]
    , decode [0b01000011#8]
    , decode [0b01000100#8]
    , decode [0b01000101#8]
    , decode [0b01000111#8] ] =
    [ .ok (.ldBB, [])
    , .ok (.ldBC, [])
    , .ok (.ldBD, [])
    , .ok (.ldBE, [])
    , .ok (.ldBH, [])
    , .ok (.ldBL, [])
    , .ok (.ldBA, []) ] := by rfl

theorem test_decode_ld_c_r :
    [ decode [0b01001000#8]
    , decode [0b01001001#8]
    , decode [0b01001010#8]
    , decode [0b01001011#8]
    , decode [0b01001100#8]
    , decode [0b01001101#8]
    , decode [0b01001111#8] ] =
    [ .ok (.ldCB, [])
    , .ok (.ldCC, [])
    , .ok (.ldCD, [])
    , .ok (.ldCE, [])
    , .ok (.ldCH, [])
    , .ok (.ldCL, [])
    , .ok (.ldCA, []) ] := by rfl

theorem test_decode_ld_d_r :
    [ decode [0b01010000#8]
    , decode [0b01010001#8]
    , decode [0b01010010#8]
    , decode [0b01010011#8]
    , decode [0b01010100#8]
    , decode [0b01010101#8]
    , decode [0b01010111#8] ] =
    [ .ok (.ldDB, [])
    , .ok (.ldDC, [])
    , .ok (.ldDD, [])
    , .ok (.ldDE, [])
    , .ok (.ldDH, [])
    , .ok (.ldDL, [])
    , .ok (.ldDA, []) ] := by rfl

theorem test_decode_ld_e_r :
    [ decode [0b01011000#8]
    , decode [0b01011001#8]
    , decode [0b01011010#8]
    , decode [0b01011011#8]
    , decode [0b01011100#8]
    , decode [0b01011101#8]
    , decode [0b01011111#8] ] =
    [ .ok (.ldEB, [])
    , .ok (.ldEC, [])
    , .ok (.ldED, [])
    , .ok (.ldEE, [])
    , .ok (.ldEH, [])
    , .ok (.ldEL, [])
    , .ok (.ldEA, []) ] := by rfl

theorem test_decode_ld_h_r :
    [ decode [0b01100000#8]
    , decode [0b01100001#8]
    , decode [0b01100010#8]
    , decode [0b01100011#8]
    , decode [0b01100100#8]
    , decode [0b01100101#8]
    , decode [0b01100111#8] ] =
    [ .ok (.ldHB, [])
    , .ok (.ldHC, [])
    , .ok (.ldHD, [])
    , .ok (.ldHE, [])
    , .ok (.ldHH, [])
    , .ok (.ldHL, [])
    , .ok (.ldHA, []) ] := by rfl

theorem test_decode_ld_l_r :
    [ decode [0b01101000#8]
    , decode [0b01101001#8]
    , decode [0b01101010#8]
    , decode [0b01101011#8]
    , decode [0b01101100#8]
    , decode [0b01101101#8]
    , decode [0b01101111#8] ] =
    [ .ok (.ldLB, [])
    , .ok (.ldLC, [])
    , .ok (.ldLD, [])
    , .ok (.ldLE, [])
    , .ok (.ldLH, [])
    , .ok (.ldLL, [])
    , .ok (.ldLA, []) ] := by rfl

theorem test_decode_ld_a_r :
    [ decode [0b01111000#8]
    , decode [0b01111001#8]
    , decode [0b01111010#8]
    , decode [0b01111011#8]
    , decode [0b01111100#8]
    , decode [0b01111101#8]
    , decode [0b01111111#8] ] =
    [ .ok (.ldAB, [])
    , .ok (.ldAC, [])
    , .ok (.ldAD, [])
    , .ok (.ldAE, [])
    , .ok (.ldAH, [])
    , .ok (.ldAL, [])
    , .ok (.ldAA, []) ] := by rfl

theorem test_decode_ld_r_n :
    [ decode [0b00000110#8, 0b10100101#8]
    , decode [0b00001110#8, 0b10100101#8]
    , decode [0b00010110#8, 0b10100101#8]
    , decode [0b00011110#8, 0b10100101#8]
    , decode [0b00100110#8, 0b10100101#8]
    , decode [0b00101110#8, 0b10100101#8]
    , decode [0b00111110#8, 0b10100101#8] ] =
    [ .ok (.ldBN 0xA5#8, [])
    , .ok (.ldCN 0xA5#8, [])
    , .ok (.ldDN 0xA5#8, [])
    , .ok (.ldEN 0xA5#8, [])
    , .ok (.ldHN 0xA5#8, [])
    , .ok (.ldLN 0xA5#8, [])
    , .ok (.ldAN 0xA5#8, []) ] := by rfl

theorem test_decode_ld_r_at_hl :
    [ decode [0b01000110#8]
    , decode [0b01001110#8]
    , decode [0b01010110#8]
    , decode [0b01011110#8]
    , decode [0b01100110#8]
    , decode [0b01101110#8]
    , decode [0b01111110#8] ] =
    [ .ok (.ldBAtHL, [])
    , .ok (.ldCAtHL, [])
    , .ok (.ldDAtHL, [])
    , .ok (.ldEAtHL, [])
    , .ok (.ldHAtHL, [])
    , .ok (.ldLAtHL, [])
    , .ok (.ldAAtHL, []) ] := by rfl

theorem test_decode_ld_at_hl_r :
    [ decode [0b00110110#8, 0b10100101#8]
    , decode [0b01110000#8]
    , decode [0b01110001#8]
    , decode [0b01110010#8]
    , decode [0b01110011#8]
    , decode [0b01110100#8]
    , decode [0b01110101#8]
    , decode [0b01110111#8] ] =
    [ .ok (.ldAtHLN 0xA5#8, [])
    , .ok (.ldAtHLB, [])
    , .ok (.ldAtHLC, [])
    , .ok (.ldAtHLD, [])
    , .ok (.ldAtHLE, [])
    , .ok (.ldAtHLH, [])
    , .ok (.ldAtHLL, [])
    , .ok (.ldAtHLA, []) ] := by rfl

theorem test_decode_a_through_memory :
    [ decode [0b00000010#8]
    , decode [0b00001010#8]
    , decode [0b00010010#8]
    , decode [0b00011010#8]
    , decode [0b00100010#8]
    , decode [0b00101010#8]
    , decode [0b00110010#8]
    , decode [0b00111010#8]
    , decode [0b11100000#8, 0b10100101#8]
    , decode [0b11100010#8]
    , decode [0b11101010#8, 0b00110100#8, 0b11000010#8]
    , decode [0b11110000#8, 0b10100101#8]
    , decode [0b11110010#8]
    , decode [0b11111010#8, 0b00110100#8, 0b11000010#8] ] =
    [ .ok (.ldAtBCA, [])
    , .ok (.ldAAtBC, [])
    , .ok (.ldAtDEA, [])
    , .ok (.ldAAtDE, [])
    , .ok (.ldAtHLIncA, [])
    , .ok (.ldAAtHLInc, [])
    , .ok (.ldAtHLDecA, [])
    , .ok (.ldAAtHLDec, [])
    , .ok (.ldIoNA 0xA5#8, [])
    , .ok (.ldIoCA, [])
    , .ok (.ldAtNNA 0xC234#16, [])
    , .ok (.ldAIoN 0xA5#8, [])
    , .ok (.ldAIoC, [])
    , .ok (.ldAAtNN 0xC234#16, []) ] := by rfl

theorem test_decode_load16_and_push :
    [ decode [0b00000001#8, 0b00110100#8, 0b11000010#8]
    , decode [0b00001000#8, 0b00110100#8, 0b11000010#8]
    , decode [0b00010001#8, 0b00110100#8, 0b11000010#8]
    , decode [0b00100001#8, 0b00110100#8, 0b11000010#8]
    , decode [0b00110001#8, 0b00110100#8, 0b11000010#8]
    , decode [0b11000101#8]
    , decode [0b11010101#8]
    , decode [0b11100101#8]
    , decode [0b11110101#8]
    , decode [0b11111000#8, 0b10100101#8]
    , decode [0b11111001#8] ] =
    [ .ok (.ldBCNN 0xC234#16, [])
    , .ok (.ldAtNNSP 0xC234#16, [])
    , .ok (.ldDENN 0xC234#16, [])
    , .ok (.ldHLNN 0xC234#16, [])
    , .ok (.ldSPNN 0xC234#16, [])
    , .ok (.pushBC, [])
    , .ok (.pushDE, [])
    , .ok (.pushHL, [])
    , .ok (.pushAF, [])
    , .ok (.ldHLSPN 0xA5#8, [])
    , .ok (.ldSPHL, []) ] := by rfl

/-- 0xCB is no prefix (30_encoding.md R158), and a list may be empty or end too early. -/
theorem test_decode_rejects :
    [decode [], decode [0xCB#8, 0x37#8], decode [0x00#8], decode [0x06#8], decode [0xFA#8], decode [0xFA#8, 0x34#8]] =
    [.error .empty, .error (.unimplemented 0xCB#8), .error (.unimplemented 0x00#8), .error (.truncated 0x06#8),
      .error (.truncated 0xFA#8), .error (.truncated 0xFA#8)] := by rfl

/-- A word as opcode_table.json numbers its bits: the second byte is bits 15 to 8, and a word without operand bits has zeros there. -/
theorem test_decode_table_word :
    [decodeTableWord 8 0x06, decodeTableWord 16 0xFE06, decodeTableWord 24 0xC23408, decodeTableWord 8 0x7E, decodeTableWord 8 0xD3] =
    [some (.ldBN 0x00#8), some (.ldBN 0xFE#8), some (.ldAtNNSP 0xC234#16), some .ldAAtHL, none] := by rfl

/-- The first step from reset runs the word placed at PC. -/
theorem test_placed_word_runs_first :
    goesTo (State.reset.withFetchWord 16 0xFE06) (fun s => { s with b := 0xFE#8, pc := 0x0002#16, cycles := 8 }) = true := by
  rfl

/-! ### Well-formedness refuses -/

theorem test_wf_default : Params.default.wf = true := by decide
theorem test_wf_refuses_empty_memory : ({ Params.default with memSize := 0 }).memSizePositive = false := by decide
theorem test_wf_refuses_large_memory : ({ Params.default with memSize := 65537 }).memSizeFits = false := by decide
theorem test_wf_refuses_narrow_cycle_counter : ({ Params.default with cycleWidth := some 31 }).cycleWidthLegal = false := by decide
theorem test_wf_params_needs_all :
    [({ Params.default with memSize := 0 }).wf, ({ Params.default with memSize := 65537 }).wf,
      ({ Params.default with cycleWidth := some 31 }).wf] = [false, false, false] := by decide
theorem test_wf_refuses_illegal_opcode : legalOpcode 0xD3#8 = false := by rfl
theorem test_wf_bytes :
    [wellFormedBytes [], wellFormedBytes [0xD3#8], wellFormedBytes [0x06#8], wellFormedBytes [0x06#8, 0xFE#8],
      wellFormedBytes [0x7E#8, 0x00#8], wellFormedBytes [0x08#8, 0x34#8, 0xC2#8]] =
    [false, false, false, true, false, true] := by rfl

/-! ### The worked examples (95_test_vectors.md, section 1) -/

theorem test_w1_ld_b_n :
    goesTo (poke 0x0000 0x06#8 (poke 0x0001 0xFE#8 State.reset))
      (fun s => { s with b := 0xFE#8, pc := 0x0002#16, cycles := 8 }) = true := by rfl
theorem test_w2_ld_a_at_hl :
    goesTo (poke 0x0000 0x7E#8 (poke 0x0124 0x55#8 { State.reset with h := 0x01#8, l := 0x24#8 }))
      (fun s => { s with a := 0x55#8, pc := 0x0001#16, cycles := 8 }) = true := by rfl
theorem test_w3_ld_a_at_hl_dec :
    goesTo (poke 0x0000 0x3A#8 (poke 0x0124 0x55#8 { State.reset with h := 0x01#8, l := 0x24#8 }))
      (fun s => { s with a := 0x55#8, l := 0x23#8, pc := 0x0001#16, cycles := 8 }) = true := by rfl
theorem test_w4_push_bc :
    goesTo (poke 0x0000 0xC5#8 { State.reset with sp := 0x1000#16, b := 0x12#8, c := 0x34#8 })
      (fun s => poke 0x0FFE 0x34#8 (poke 0x0FFF 0x12#8 { s with sp := 0x0FFE#16, pc := 0x0001#16, cycles := 16 })) = true := by
  rfl
theorem test_w5_unimplemented : stopsWith (poke 0x0000 0xD3#8 State.reset) (.unimplementedOpcode 0xD3#8 0x0000#16) = true := by
  rfl
theorem test_w6_fresh_machine : stopsWith State.reset (.unimplementedOpcode 0x00#8 0x0000#16) = true := by rfl
theorem test_w7_pair_address : [hlAddress t0, bcAddress { t0 with b := 0xFF#8, c := 0xFF#8 }] = [0xC012#16, 0xFFFF#16] := by
  rfl
theorem test_w8_hl_moves :
    [hlAddress (incrementHl { t0 with h := 0xFF#8, l := 0xFF#8 }), hlAddress (decrementHl { t0 with h := 0x00#8, l := 0x00#8 }),
      hlAddress (incrementHl { t0 with h := 0x12#8, l := 0xFF#8 }), hlAddress (decrementHl { t0 with h := 0x13#8, l := 0x00#8 })] =
    [0x0000#16, 0xFFFF#16, 0x1300#16, 0x12FF#16] := by rfl
theorem test_w9_two_byte_address :
    twoByteAddress 0xC000 (poke 0xC000 0x34#8 (poke 0xC001 0x12#8 State.reset)) = .next 0x1234#16 := by rfl
theorem test_w10_zero_flag :
    [(adjustZeroFlag 0 t0).flags.z, (adjustZeroFlag 1 t0).flags.z, (adjustZeroFlag 0x100 t0).flags.z] = [true, false, true] := by
  rfl
theorem test_w11_carry_flag :
    [(adjustCarryFlag 0x100 .w8 t0).flags.c, (adjustCarryFlag 0xFF .w8 t0).flags.c, (adjustCarryFlag 0x10000 .w16 t0).flags.c,
      (adjustCarryFlag 0xFFFF .w16 t0).flags.c] = [true, false, true, false] := by rfl
theorem test_w12_half_carry_flag :
    [(adjustHalfCarryFlag 0x08#8 0x10 t0).flags.h, (adjustHalfCarryFlag 0x07#8 0x10 t0).flags.h,
      (adjustHalfCarryFlag 0x08#8 0x100 t0).flags.h] = [true, false, false] := by rfl

/-! ### One step of every instruction, and its edges (95_test_vectors.md, section 2) -/

theorem test_step_ld_b_r : -- V1 to V7
    ([(0x40#8, 0x0B#8), (0x41#8, 0x0C#8), (0x42#8, 0x0D#8), (0x43#8, 0x0E#8), (0x44#8, 0xC0#8), (0x45#8, 0x12#8), (0x47#8, 0x0A#8)].all
      fun row => goesTo (poke 0x0100 row.1 t0) fun s => { s with b := row.2, pc := 0x0101#16, cycles := 104 }) = true := by
  rfl

theorem test_step_ld_c_r : -- V8 to V14
    ([(0x48#8, 0x0B#8), (0x49#8, 0x0C#8), (0x4A#8, 0x0D#8), (0x4B#8, 0x0E#8), (0x4C#8, 0xC0#8), (0x4D#8, 0x12#8), (0x4F#8, 0x0A#8)].all
      fun row => goesTo (poke 0x0100 row.1 t0) fun s => { s with c := row.2, pc := 0x0101#16, cycles := 104 }) = true := by
  rfl

theorem test_step_ld_d_r : -- V15 to V21
    ([(0x50#8, 0x0B#8), (0x51#8, 0x0C#8), (0x52#8, 0x0D#8), (0x53#8, 0x0E#8), (0x54#8, 0xC0#8), (0x55#8, 0x12#8), (0x57#8, 0x0A#8)].all
      fun row => goesTo (poke 0x0100 row.1 t0) fun s => { s with d := row.2, pc := 0x0101#16, cycles := 104 }) = true := by
  rfl

theorem test_step_ld_e_r : -- V22 to V28
    ([(0x58#8, 0x0B#8), (0x59#8, 0x0C#8), (0x5A#8, 0x0D#8), (0x5B#8, 0x0E#8), (0x5C#8, 0xC0#8), (0x5D#8, 0x12#8), (0x5F#8, 0x0A#8)].all
      fun row => goesTo (poke 0x0100 row.1 t0) fun s => { s with e := row.2, pc := 0x0101#16, cycles := 104 }) = true := by
  rfl

theorem test_step_ld_h_r : -- V29 to V35
    ([(0x60#8, 0x0B#8), (0x61#8, 0x0C#8), (0x62#8, 0x0D#8), (0x63#8, 0x0E#8), (0x64#8, 0xC0#8), (0x65#8, 0x12#8), (0x67#8, 0x0A#8)].all
      fun row => goesTo (poke 0x0100 row.1 t0) fun s => { s with h := row.2, pc := 0x0101#16, cycles := 104 }) = true := by
  rfl

theorem test_step_ld_l_r : -- V36 to V42
    ([(0x68#8, 0x0B#8), (0x69#8, 0x0C#8), (0x6A#8, 0x0D#8), (0x6B#8, 0x0E#8), (0x6C#8, 0xC0#8), (0x6D#8, 0x12#8), (0x6F#8, 0x0A#8)].all
      fun row => goesTo (poke 0x0100 row.1 t0) fun s => { s with l := row.2, pc := 0x0101#16, cycles := 104 }) = true := by
  rfl

theorem test_step_ld_a_r : -- V43 to V49
    ([(0x78#8, 0x0B#8), (0x79#8, 0x0C#8), (0x7A#8, 0x0D#8), (0x7B#8, 0x0E#8), (0x7C#8, 0xC0#8), (0x7D#8, 0x12#8), (0x7F#8, 0x0A#8)].all
      fun row => goesTo (poke 0x0100 row.1 t0) fun s => { s with a := row.2, pc := 0x0101#16, cycles := 104 }) = true := by
  rfl

theorem test_step_ld_r_n : -- V50 to V56
    ([ goesTo (poke 0x0101 0x99#8 (poke 0x0100 0x06#8 t0)) (fun s => { s with b := 0x99#8, pc := 0x0102#16, cycles := 108 })
    , goesTo (poke 0x0101 0x99#8 (poke 0x0100 0x0E#8 t0)) (fun s => { s with c := 0x99#8, pc := 0x0102#16, cycles := 108 })
    , goesTo (poke 0x0101 0x99#8 (poke 0x0100 0x16#8 t0)) (fun s => { s with d := 0x99#8, pc := 0x0102#16, cycles := 108 })
    , goesTo (poke 0x0101 0x99#8 (poke 0x0100 0x1E#8 t0)) (fun s => { s with e := 0x99#8, pc := 0x0102#16, cycles := 108 })
    , goesTo (poke 0x0101 0x99#8 (poke 0x0100 0x26#8 t0)) (fun s => { s with h := 0x99#8, pc := 0x0102#16, cycles := 108 })
    , goesTo (poke 0x0101 0x99#8 (poke 0x0100 0x2E#8 t0)) (fun s => { s with l := 0x99#8, pc := 0x0102#16, cycles := 108 })
    , goesTo (poke 0x0101 0x99#8 (poke 0x0100 0x3E#8 t0)) (fun s => { s with a := 0x99#8, pc := 0x0102#16, cycles := 108 }) ].all fun ok => ok) = true := by rfl

theorem test_step_ld_r_n_edges : -- V57 to V61
    ([ goesTo (poke 0x0100 0x3E#8 t0) (fun s => { s with a := 0x00#8, pc := 0x0102#16, cycles := 108 })
    , goesTo (poke 0x0101 0xFF#8 (poke 0x0100 0x3E#8 t0)) (fun s => { s with a := 0xFF#8, pc := 0x0102#16, cycles := 108 })
    , stopsWith (poke 0xFFFF 0x06#8 { t0 with pc := 0xFFFF#16 }) (.outOfRangeAddress 0x10000 0xFFFF#16)
    , goesTo (poke 0xFFFF 0x06#8 (poke 0x0000 0x44#8 { t0With 65536 .wrap with pc := 0xFFFF#16 })) (fun s => { s with b := 0x44#8, pc := 0x0001#16, cycles := 108 })
    , goesTo (poke 0xFFFF 0x44#8 (poke 0xFFFE 0x06#8 { t0 with pc := 0xFFFE#16 })) (fun s => { s with b := 0x44#8, pc := 0x0000#16, cycles := 108 }) ].all fun ok => ok) = true := by rfl

theorem test_step_ld_r_at_hl : -- V62 to V68
    ([ goesTo (poke 0x0100 0x46#8 t0) (fun s => { s with b := 0x5A#8, pc := 0x0101#16, cycles := 108 })
    , goesTo (poke 0x0100 0x4E#8 t0) (fun s => { s with c := 0x5A#8, pc := 0x0101#16, cycles := 108 })
    , goesTo (poke 0x0100 0x56#8 t0) (fun s => { s with d := 0x5A#8, pc := 0x0101#16, cycles := 108 })
    , goesTo (poke 0x0100 0x5E#8 t0) (fun s => { s with e := 0x5A#8, pc := 0x0101#16, cycles := 108 })
    , goesTo (poke 0x0100 0x66#8 t0) (fun s => { s with h := 0x5A#8, pc := 0x0101#16, cycles := 108 })
    , goesTo (poke 0x0100 0x6E#8 t0) (fun s => { s with l := 0x5A#8, pc := 0x0101#16, cycles := 108 })
    , goesTo (poke 0x0100 0x7E#8 t0) (fun s => { s with a := 0x5A#8, pc := 0x0101#16, cycles := 108 }) ].all fun ok => ok) = true := by rfl

theorem test_step_ld_r_at_hl_edges : -- V69 to V71
    ([ goesTo (poke 0xFFFF 0xA5#8 (poke 0x0100 0x7E#8 { t0 with h := 0xFF#8, l := 0xFF#8 })) (fun s => { s with a := 0xA5#8, pc := 0x0101#16, cycles := 108 })
    , stopsWith (poke 0x0100 0x7E#8 { t0With 0x8000 .fault with h := 0x80#8, l := 0x00#8 }) (.outOfRangeAddress 0x8000 0x0100#16)
    , goesTo (poke 0x0100 0x66#8 { t0 with h := 0x01#8, l := 0x00#8 }) (fun s => { s with h := 0x66#8, pc := 0x0101#16, cycles := 108 }) ].all fun ok => ok) = true := by rfl

theorem test_step_ld_at_hl_r : -- V72 to V78
    ([ goesTo (poke 0x0100 0x70#8 t0) (fun s => poke 0xC012 0x0B#8 { s with pc := 0x0101#16, cycles := 108 })
    , goesTo (poke 0x0100 0x71#8 t0) (fun s => poke 0xC012 0x0C#8 { s with pc := 0x0101#16, cycles := 108 })
    , goesTo (poke 0x0100 0x72#8 t0) (fun s => poke 0xC012 0x0D#8 { s with pc := 0x0101#16, cycles := 108 })
    , goesTo (poke 0x0100 0x73#8 t0) (fun s => poke 0xC012 0x0E#8 { s with pc := 0x0101#16, cycles := 108 })
    , goesTo (poke 0x0100 0x74#8 t0) (fun s => poke 0xC012 0xC0#8 { s with pc := 0x0101#16, cycles := 108 })
    , goesTo (poke 0x0100 0x75#8 t0) (fun s => poke 0xC012 0x12#8 { s with pc := 0x0101#16, cycles := 108 })
    , goesTo (poke 0x0100 0x77#8 t0) (fun s => poke 0xC012 0x0A#8 { s with pc := 0x0101#16, cycles := 108 }) ].all fun ok => ok) = true := by rfl

theorem test_step_ld_at_hl_r_edges : -- V79 to V80
    ([ goesTo (poke 0x0100 0x70#8 { t0 with h := 0x01#8, l := 0x00#8 }) (fun s => poke 0x0100 0x0B#8 { s with pc := 0x0101#16, cycles := 108 })
    , stopsWith (poke 0x0100 0x77#8 { t0With 0x8000 .fault with h := 0x80#8, l := 0x00#8 }) (.outOfRangeAddress 0x8000 0x0100#16) ].all fun ok => ok) = true := by rfl

theorem test_step_ld_at_hl_n : -- V81 to V84
    ([ goesTo (poke 0x0101 0x99#8 (poke 0x0100 0x36#8 t0)) (fun s => poke 0xC012 0x99#8 { s with pc := 0x0102#16, cycles := 112 })
    , goesTo (poke 0x0101 0x99#8 (poke 0x0100 0x36#8 { t0 with h := 0x01#8, l := 0x01#8 })) (fun s => poke 0x0101 0x99#8 { s with pc := 0x0102#16, cycles := 112 })
    , stopsWith (poke 0xFFFF 0x36#8 { t0 with pc := 0xFFFF#16 }) (.outOfRangeAddress 0x10000 0xFFFF#16)
    , goesTo (poke 0xFFFF 0x36#8 (poke 0x0000 0x99#8 { t0With 65536 .wrap with h := 0x00#8, l := 0x00#8, pc := 0xFFFF#16 })) (fun s => poke 0x0000 0x99#8 { s with pc := 0x0001#16, cycles := 112 }) ].all fun ok => ok) = true := by rfl

theorem test_step_a_through_pairs : -- V85 to V91
    ([ goesTo (poke 0x0100 0x0A#8 t0) (fun s => { s with a := 0xBC#8, pc := 0x0101#16, cycles := 108 })
    , goesTo (poke 0x0100 0x1A#8 t0) (fun s => { s with a := 0xDE#8, pc := 0x0101#16, cycles := 108 })
    , goesTo (poke 0x0100 0x02#8 t0) (fun s => poke 0x0B0C 0x0A#8 { s with pc := 0x0101#16, cycles := 108 })
    , goesTo (poke 0x0100 0x12#8 t0) (fun s => poke 0x0D0E 0x0A#8 { s with pc := 0x0101#16, cycles := 108 })
    , goesTo (poke 0x0100 0x0A#8 { t0 with b := 0x00#8, c := 0x00#8 }) (fun s => { s with a := 0x00#8, pc := 0x0101#16, cycles := 108 })
    , goesTo (poke 0x0100 0x12#8 { t0 with d := 0xFF#8, e := 0xFF#8 }) (fun s => poke 0xFFFF 0x0A#8 { s with pc := 0x0101#16, cycles := 108 })
    , stopsWith (poke 0x0100 0x12#8 { t0With 0xC000 .fault with d := 0xFF#8, e := 0xFF#8 }) (.outOfRangeAddress 0xFFFF 0x0100#16) ].all fun ok => ok) = true := by rfl

theorem test_step_a_through_nn : -- V92 to V95
    ([ goesTo (poke 0x0102 0xC2#8 (poke 0x0101 0x34#8 (poke 0x0100 0xFA#8 t0))) (fun s => { s with a := 0x42#8, pc := 0x0103#16, cycles := 116 })
    , goesTo (poke 0x0102 0xC2#8 (poke 0x0101 0x34#8 (poke 0x0100 0xEA#8 t0))) (fun s => poke 0xC234 0x0A#8 { s with pc := 0x0103#16, cycles := 116 })
    , goesTo (poke 0xFFFF 0x3C#8 (poke 0x0102 0xFF#8 (poke 0x0101 0xFF#8 (poke 0x0100 0xFA#8 t0)))) (fun s => { s with a := 0x3C#8, pc := 0x0103#16, cycles := 116 })
    , goesTo (poke 0x0100 0xEA#8 t0) (fun s => poke 0x0000 0x0A#8 { s with pc := 0x0103#16, cycles := 116 }) ].all fun ok => ok) = true := by rfl

theorem test_step_a_through_nn_edges : -- V96 to V99
    ([ stopsWith (poke 0xFFFF 0x34#8 (poke 0xFFFE 0xFA#8 { t0 with pc := 0xFFFE#16 })) (.outOfRangeAddress 0x10000 0xFFFE#16)
    , goesTo (poke 0xFFFF 0x34#8 (poke 0xFFFE 0xFA#8 (poke 0x0000 0xC2#8 { t0With 65536 .wrap with pc := 0xFFFE#16 }))) (fun s => { s with a := 0x42#8, pc := 0x0001#16, cycles := 116 })
    , stopsWith (poke 0xFFFF 0xFA#8 { t0 with pc := 0xFFFF#16 }) (.outOfRangeAddress 0x10000 0xFFFF#16)
    , goesTo (poke 0x0102 0x01#8 (poke 0x0101 0x01#8 (poke 0x0100 0xEA#8 t0))) (fun s => poke 0x0101 0x0A#8 { s with pc := 0x0103#16, cycles := 116 }) ].all fun ok => ok) = true := by rfl

theorem test_step_io_window : -- V100 to V103
    ([ goesTo (poke 0x0100 0xF2#8 t0) (fun s => { s with a := 0x77#8, pc := 0x0101#16, cycles := 108 })
    , goesTo (poke 0x0100 0xE2#8 t0) (fun s => poke 0xFF0C 0x0A#8 { s with pc := 0x0101#16, cycles := 108 })
    , goesTo (poke 0x0101 0x80#8 (poke 0x0100 0xF0#8 t0)) (fun s => { s with a := 0x81#8, pc := 0x0102#16, cycles := 112 })
    , goesTo (poke 0x0101 0x80#8 (poke 0x0100 0xE0#8 t0)) (fun s => poke 0xFF80 0x0A#8 { s with pc := 0x0102#16, cycles := 112 }) ].all fun ok => ok) = true := by rfl

theorem test_step_io_window_edges : -- V104 to V109
    ([ goesTo (poke 0xFFFF 0x1F#8 (poke 0x0100 0xF2#8 { t0 with c := 0xFF#8 })) (fun s => { s with a := 0x1F#8, pc := 0x0101#16, cycles := 108 })
    , goesTo (poke 0x0100 0xE2#8 { t0 with c := 0x00#8 }) (fun s => poke 0xFF00 0x0A#8 { s with pc := 0x0101#16, cycles := 108 })
    , goesTo (poke 0x0101 0xFF#8 (poke 0x0100 0xE0#8 t0)) (fun s => poke 0xFFFF 0x0A#8 { s with pc := 0x0102#16, cycles := 112 })
    , stopsWith (poke 0x0101 0x80#8 (poke 0x0100 0xF0#8 (t0With 0xFF80 .fault))) (.outOfRangeAddress 0xFF80 0x0100#16)
    , goesTo (poke 0x0101 0x7F#8 (poke 0x0100 0xF0#8 (t0With 0xFF80 .fault))) (fun s => { s with a := 0x00#8, pc := 0x0102#16, cycles := 112 })
    , stopsWith (poke 0x0100 0xE2#8 (t0With 0x8000 .fault)) (.outOfRangeAddress 0xFF0C 0x0100#16) ].all fun ok => ok) = true := by rfl

theorem test_step_hl_moving : -- V110 to V113
    ([ goesTo (poke 0x0100 0x2A#8 t0) (fun s => { s with a := 0x5A#8, l := 0x13#8, pc := 0x0101#16, cycles := 108 })
    , goesTo (poke 0x0100 0x3A#8 t0) (fun s => { s with a := 0x5A#8, l := 0x11#8, pc := 0x0101#16, cycles := 108 })
    , goesTo (poke 0x0100 0x22#8 t0) (fun s => poke 0xC012 0x0A#8 { s with l := 0x13#8, pc := 0x0101#16, cycles := 108 })
    , goesTo (poke 0x0100 0x32#8 t0) (fun s => poke 0xC012 0x0A#8 { s with l := 0x11#8, pc := 0x0101#16, cycles := 108 }) ].all fun ok => ok) = true := by rfl

theorem test_step_hl_moving_edges : -- V114 to V118
    ([ goesTo (poke 0xFFFF 0x99#8 (poke 0x0100 0x2A#8 { t0 with h := 0xFF#8, l := 0xFF#8 })) (fun s => { s with a := 0x99#8, h := 0x00#8, l := 0x00#8, pc := 0x0101#16, cycles := 108 })
    , goesTo (poke 0x0100 0x32#8 { t0 with h := 0x00#8, l := 0x00#8 }) (fun s => poke 0x0000 0x0A#8 { s with h := 0xFF#8, l := 0xFF#8, pc := 0x0101#16, cycles := 108 })
    , goesTo (poke 0x0100 0x22#8 { t0 with h := 0x00#8, l := 0xFF#8 }) (fun s => poke 0x00FF 0x0A#8 { s with h := 0x01#8, l := 0x00#8, pc := 0x0101#16, cycles := 108 })
    , goesTo (poke 0x0100 0x3A#8 { t0 with h := 0x01#8, l := 0x00#8 }) (fun s => { s with a := 0x3A#8, h := 0x00#8, l := 0xFF#8, pc := 0x0101#16, cycles := 108 })
    , stopsWith (poke 0x0100 0x22#8 { t0With 0x8000 .fault with h := 0x80#8, l := 0x00#8 }) (.outOfRangeAddress 0x8000 0x0100#16) ].all fun ok => ok) = true := by rfl

theorem test_step_ld_rr_nn : -- V119 to V123
    ([ goesTo (poke 0x0102 0xBE#8 (poke 0x0101 0xEF#8 (poke 0x0100 0x01#8 t0))) (fun s => { s with b := 0xBE#8, c := 0xEF#8, pc := 0x0103#16, cycles := 112 })
    , goesTo (poke 0x0102 0xBE#8 (poke 0x0101 0xEF#8 (poke 0x0100 0x11#8 t0))) (fun s => { s with d := 0xBE#8, e := 0xEF#8, pc := 0x0103#16, cycles := 112 })
    , goesTo (poke 0x0102 0xBE#8 (poke 0x0101 0xEF#8 (poke 0x0100 0x21#8 t0))) (fun s => { s with h := 0xBE#8, l := 0xEF#8, pc := 0x0103#16, cycles := 112 })
    , goesTo (poke 0x0102 0xBE#8 (poke 0x0101 0xEF#8 (poke 0x0100 0x31#8 t0))) (fun s => { s with sp := 0xBEEF#16, pc := 0x0103#16, cycles := 112 })
    , goesTo (poke 0x0100 0x31#8 t0) (fun s => { s with sp := 0x0000#16, pc := 0x0103#16, cycles := 112 }) ].all fun ok => ok) = true := by rfl

theorem test_step_ld_rr_nn_edges : -- V124 to V126
    ([ stopsWith (poke 0xFFFF 0xEF#8 (poke 0xFFFE 0x01#8 { t0 with pc := 0xFFFE#16 })) (.outOfRangeAddress 0x10000 0xFFFE#16)
    , goesTo (poke 0xFFFF 0xEF#8 (poke 0xFFFE 0x01#8 (poke 0x0000 0xBE#8 { t0With 65536 .wrap with pc := 0xFFFE#16 }))) (fun s => { s with b := 0xBE#8, c := 0xEF#8, pc := 0x0001#16, cycles := 112 })
    , goesTo (poke 0xFFFF 0xBE#8 (poke 0xFFFE 0xEF#8 (poke 0xFFFD 0x21#8 { t0 with pc := 0xFFFD#16 }))) (fun s => { s with h := 0xBE#8, l := 0xEF#8, pc := 0x0000#16, cycles := 112 }) ].all fun ok => ok) = true := by rfl

theorem test_step_ld_sp_hl : -- V127 to V128
    ([ goesTo (poke 0x0100 0xF9#8 t0) (fun s => { s with sp := 0xC012#16, pc := 0x0101#16, cycles := 108 })
    , goesTo (poke 0x0100 0xF9#8 { t0 with h := 0x00#8, l := 0x00#8 }) (fun s => { s with sp := 0x0000#16, pc := 0x0101#16, cycles := 108 }) ].all fun ok => ok) = true := by rfl

theorem test_step_ld_hl_sp_n : -- V129 to V133
    ([ goesTo (poke 0x0101 0xFE#8 (poke 0x0100 0xF8#8 t0)) (fun s => { s with h := 0xFF#8, l := 0xEE#8, pc := 0x0102#16, cycles := 112 })
    , goesTo (poke 0x0101 0x01#8 (poke 0x0100 0xF8#8 { t0 with sp := 0xFFFF#16 })) (fun s => { s with h := 0x00#8, l := 0x00#8, pc := 0x0102#16, cycles := 112, flags := ⟨false, false, false, true⟩ })
    , goesTo (poke 0x0101 0xFF#8 (poke 0x0100 0xF8#8 { t0 with sp := 0x0000#16 })) (fun s => { s with h := 0xFF#8, l := 0xFF#8, pc := 0x0102#16, cycles := 112 })
    , goesTo (poke 0x0101 0x01#8 (poke 0x0100 0xF8#8 { t0 with sp := 0x000F#16 })) (fun s => { s with h := 0x00#8, l := 0x10#8, pc := 0x0102#16, cycles := 112, flags := ⟨false, false, true, false⟩ })
    , goesTo (poke 0x0101 0xF8#8 (poke 0x0100 0xF8#8 { t0 with sp := 0x0008#16 })) (fun s => { s with h := 0x00#8, l := 0x00#8, pc := 0x0102#16, cycles := 112 }) ].all fun ok => ok) = true := by rfl

theorem test_step_ld_hl_sp_n_edges : -- V134 to V139
    ([ goesTo (poke 0x0101 0x80#8 (poke 0x0100 0xF8#8 { t0 with sp := 0x1000#16 })) (fun s => { s with h := 0x0F#8, l := 0x80#8, pc := 0x0102#16, cycles := 112 })
    , goesTo (poke 0x0101 0x7F#8 (poke 0x0100 0xF8#8 { t0 with sp := 0x0FFF#16 })) (fun s => { s with h := 0x10#8, l := 0x7E#8, pc := 0x0102#16, cycles := 112, flags := ⟨false, false, true, false⟩ })
    , goesTo (poke 0x0100 0xF8#8 { t0 with sp := 0xFF00#16 }) (fun s => { s with h := 0xFF#8, l := 0x00#8, pc := 0x0102#16, cycles := 112 })
    , goesTo (poke 0x0100 0xF8#8 { t0 with sp := 0x0018#16 }) (fun s => { s with h := 0x00#8, l := 0x18#8, pc := 0x0102#16, cycles := 112, flags := ⟨false, false, true, false⟩ })
    , goesTo (poke 0x0101 0x01#8 (poke 0x0100 0xF8#8 { t0 with sp := 0x2000#16, flags := ⟨true, true, true, true⟩ })) (fun s => { s with h := 0x20#8, l := 0x01#8, pc := 0x0102#16, cycles := 112, flags := ⟨false, false, false, false⟩ })
    , stopsWith (poke 0xFFFF 0xF8#8 { t0 with pc := 0xFFFF#16 }) (.outOfRangeAddress 0x10000 0xFFFF#16) ].all fun ok => ok) = true := by rfl

theorem test_step_ld_at_nn_sp : -- V140 to V144
    ([ goesTo (poke 0x0102 0xC3#8 (poke 0x0100 0x08#8 t0)) (fun s => poke 0xC301 0xFF#8 (poke 0xC300 0xF0#8 { s with pc := 0x0103#16, cycles := 120 }))
    , goesTo (poke 0x0102 0xFF#8 (poke 0x0101 0xFE#8 (poke 0x0100 0x08#8 { t0 with sp := 0xABCD#16 }))) (fun s => poke 0xFFFF 0xAB#8 (poke 0xFFFE 0xCD#8 { s with pc := 0x0103#16, cycles := 120 }))
    , stopsWith (poke 0x0102 0xFF#8 (poke 0x0101 0xFF#8 (poke 0x0100 0x08#8 { t0 with sp := 0xABCD#16 }))) (.outOfRangeAddress 0x10000 0x0100#16)
    , goesTo (poke 0x0102 0xFF#8 (poke 0x0101 0xFF#8 (poke 0x0100 0x08#8 { t0With 65536 .wrap with sp := 0xABCD#16 }))) (fun s => poke 0x0000 0xAB#8 (poke 0xFFFF 0xCD#8 { s with pc := 0x0103#16, cycles := 120 }))
    , stopsWith (poke 0x0102 0x7F#8 (poke 0x0101 0xFF#8 (poke 0x0100 0x08#8 { t0With 0x8000 .fault with sp := 0xABCD#16 }))) (.outOfRangeAddress 0x8000 0x0100#16) ].all fun ok => ok) = true := by rfl

theorem test_step_push : -- V145 to V148
    ([ goesTo (poke 0x0100 0xC5#8 t0) (fun s => poke 0xFFEE 0x0C#8 (poke 0xFFEF 0x0B#8 { s with sp := 0xFFEE#16, pc := 0x0101#16, cycles := 116 }))
    , goesTo (poke 0x0100 0xD5#8 t0) (fun s => poke 0xFFEE 0x0E#8 (poke 0xFFEF 0x0D#8 { s with sp := 0xFFEE#16, pc := 0x0101#16, cycles := 116 }))
    , goesTo (poke 0x0100 0xE5#8 t0) (fun s => poke 0xFFEE 0x12#8 (poke 0xFFEF 0xC0#8 { s with sp := 0xFFEE#16, pc := 0x0101#16, cycles := 116 }))
    , goesTo (poke 0x0100 0xF5#8 t0) (fun s => poke 0xFFEE 0x00#8 (poke 0xFFEF 0x0A#8 { s with sp := 0xFFEE#16, pc := 0x0101#16, cycles := 116 })) ].all fun ok => ok) = true := by rfl

theorem test_step_push_edges : -- V149 to V153
    ([ goesTo (poke 0x0100 0xC5#8 { t0 with sp := 0x0000#16 }) (fun s => poke 0xFFFE 0x0C#8 (poke 0xFFFF 0x0B#8 { s with sp := 0xFFFE#16, pc := 0x0101#16, cycles := 116 }))
    , goesTo (poke 0x0100 0xD5#8 { t0 with sp := 0x0001#16 }) (fun s => poke 0xFFFF 0x0E#8 (poke 0x0000 0x0D#8 { s with sp := 0xFFFF#16, pc := 0x0101#16, cycles := 116 }))
    , stopsWith (poke 0x0100 0xD5#8 { t0With 0x8000 .fault with sp := 0x0001#16 }) (.outOfRangeAddress 0xFFFF 0x0100#16)
    , stopsWith (poke 0x0100 0xE5#8 { t0With 0x8000 .fault with sp := 0x8001#16 }) (.outOfRangeAddress 0x8000 0x0100#16)
    , goesTo (poke 0x0100 0xE5#8 { t0 with h := 0x01#8, l := 0x00#8, sp := 0x0102#16 }) (fun s => poke 0x0100 0x00#8 (poke 0x0101 0x01#8 { s with sp := 0x0100#16, pc := 0x0101#16, cycles := 116 })) ].all fun ok => ok) = true := by rfl

theorem test_step_fault_priority : -- V181 to V185
    ([ stopsWith (poke 0x0101 0x37#8 (poke 0x0100 0xCB#8 t0)) (.unimplementedOpcode 0xCB#8 0x0100#16)
    , stopsWith { t0 with pc := 0xFFFF#16 } (.unimplementedOpcode 0x00#8 0xFFFF#16)
    , stopsWith (poke 0x8000 0x7F#8 { t0With 0x8000 .fault with pc := 0x8000#16 }) (.outOfRangeAddress 0x8000 0x8000#16)
    , stopsWith (poke 0x8001 0xC2#8 (poke 0x8000 0x34#8 (poke 0x7FFF 0xFA#8 { t0With 0x8000 .fault with pc := 0x7FFF#16 }))) (.outOfRangeAddress 0x8000 0x7FFF#16)
    , stopsWith (poke 0x0100 0x7E#8 (t0With 0x0001 .fault)) (.outOfRangeAddress 0x100 0x0100#16) ].all fun ok => ok) = true := by rfl

/-- 95_test_vectors.md, section 2.14. -/
theorem test_flags_byte :
    ([false, true].flatMap fun z => [false, true].flatMap fun n => [false, true].flatMap fun h => [false, true].map fun c =>
      flagsByte ⟨z, n, h, c⟩) =
    [0x00#8, 0x09#8, 0x20#8, 0x29#8, 0x40#8, 0x49#8, 0x60#8, 0x69#8, 0x80#8, 0x89#8, 0xA0#8, 0xA9#8, 0xC0#8, 0xC9#8, 0xE0#8, 0xE9#8] := by
  rfl

/-- V154 to V180, and the other illegal bytes: each stops with its own name. -/
theorem test_illegal_bytes_stop :
    ([illegalOpcodes0, illegalOpcodes1, illegalOpcodes2, illegalOpcodes3].map fun ops =>
      ops.all fun op => stopsWith (poke 0x0100 op t0) (.unimplementedOpcode op 0x0100#16)) = [true, true, true, true] := by rfl

/-- An instance of LDHLSP_FLAGS other than the default: the silicon's value at the input of V133 (93_implementation_defined.md K8). -/
theorem test_ldhlsp_instance :
    goesTo (poke 0x0101 0xF8#8 (poke 0x0100 0xF8#8
      { t0 with sp := 0x0008#16, params := { Params.default with ldhlspFlags := [⟨0x0008#16, 0xF8#8, true, true⟩] } }))
      (fun s => { s with h := 0x00#8, l := 0x00#8, pc := 0x0102#16, cycles := 112, flags := ⟨false, false, true, true⟩ }) = true := by
  rfl

/-- The host: a write that exists, a step, and a write that does not exist, at which the run is over (60_exceptions.md R606). -/
theorem test_driver_run :
    runDriver [.write 0x0100 0x41#8, .step, .write 0x10000 0x01#8, .step] t0 =
      ⟨{ poke 0x0100 0x41#8 t0 with b := 0x0C#8, pc := 0x0101#16, cycles := 104 },
        some (.fault (.outOfRangeAddress 0x10000 0x0101#16))⟩ := by rfl

/-- Resetting again (70_reset_and_hazards.md R700): a new CPU runs what is in the kept memory from 0x0000, and with a new Memory Map there is
nothing to run (R704). -/
theorem test_reset_again :
    [decide (runDriver [.write 0x0000 0x06#8, .write 0x0001 0xFE#8, .newCpu, .step] t0 =
        ⟨{ State.reset with b := 0xFE#8, pc := 0x0002#16, cycles := 8, mem := (poke 0x0001 0xFE#8 (poke 0x0000 0x06#8 t0)).mem }, none⟩),
      decide (runDriver [.write 0x0000 0x06#8, .newMachine, .step] t0 =
        ⟨State.reset, some (.fault (.unimplementedOpcode 0x00#8 0x0000#16))⟩)] = [true, true] := by rfl

/-- A counter of 32 bits that is about to overflow: the step commits, and the run is no longer safe. -/
theorem test_cycles_overflow_is_not_safe :
    ¬ SafeRun 1 (poke 0x0100 0x41#8 { t0 with cycles := 4294967295, params := { Params.default with cycleWidth := some 32 } }) := by
  rintro ⟨_, t, hstep, hfits⟩
  cases hstep
  exact absurd (show 4294967299 < 2 ^ 32 from hfits) (by decide)

/-! ### Witnesses: states and operands that meet the hypotheses of the statements -/

/-- T0 on a memory of 32 KiB. -/
def small : State := t0With 0x8000 .fault

theorem witness_ConstructionMeetsInvariant :
    [Params.default.wf, ({ Params.default with memSize := 1 }).wf, ({ Params.default with cycleWidth := some 32 }).wf] =
    [true, true, true] := by decide
theorem witness_MemoryReadContract : 0xFFFF < t0.params.memSize ∧ t0.params.memSize ≤ 0x10000 ∧ small.params.memSize ≤ 0x8000 := by
  decide
theorem witness_MemoryWriteContract : 0xFFFF < t0.params.memSize ∧ t0.params.memSize ≤ 0x10000 ∧ t0.mem.wf = true := by decide
theorem witness_CanonicalMemoryIsUnique :
    Memory.wf [(5, 1#8)] = true ∧ ∀ a, Memory.read a [(5, 1#8)] = Memory.read a [(5, 1#8)] := ⟨rfl, fun _ => rfl⟩
theorem witness_RegisterPairsAreViews :
    (Reg.b, Reg.c) ∈ [(Reg.b, Reg.c), (Reg.d, Reg.e), (Reg.h, Reg.l)] ∧ Reg.a ≠ .b ∧ Reg.a ≠ .c := by decide
/-- The two bytes exist; the first does not; only the second does not. -/
theorem witness_TwoByteAddressIsLittleEndian :
    (0xFFFE < t0.params.memSize ∧ addrPlus t0.params 0xFFFE 1 < t0.params.memSize ∧ t0.mem.wf = true) ∧
    t0.params.memSize ≤ 0x10000 ∧ (0xFFFF < t0.params.memSize ∧ t0.params.memSize ≤ addrPlus t0.params 0xFFFF 1) := by decide
theorem witness_PushToStackDecrementsThenWrites :
    (t0.sp - 1#16).toNat < t0.params.memSize ∧ t0.mem.wf = true ∧ small.params.memSize ≤ (small.sp - 1#16).toNat := by decide
theorem witness_DecodedBytesAreTheEncoding : decode [0x06#8, 0xFE#8, 0x41#8] = .ok (.ldBN 0xFE#8, [0x41#8]) := by rfl
theorem witness_OpcodeAloneGivesTheLength :
    (encode (.ldBN 0x00#8)).head? = (encode (.ldBN 0xFF#8)).head? ∧ decode [0x06#8, 0xFE#8] = .ok (.ldBN 0xFE#8, []) ∧
    decode [0x06#8, 0x00#8, 0x41#8] = .ok (.ldBN 0x00#8, [0x41#8]) := ⟨rfl, rfl, rfl⟩
/-- A three-byte instruction at the last place where it fits. -/
theorem witness_StepRunsWhatDecodes :
    decode [0x08#8, 0x34#8, 0xC2#8] = .ok (.ldAtNNSP 0xC234#16, []) ∧
    ([(0, 0x08#8), (1, 0x34#8), (2, 0xC2#8)].all fun row =>
      let s := poke 0xFFFD 0x08#8 (poke 0xFFFE 0x34#8 (poke 0xFFFF 0xC2#8 { t0 with pc := 0xFFFD#16 }))
      decide (instrByteAddr s row.1 < s.params.memSize) && decide (s.peek (instrByteAddr s row.1) = row.2)) = true := by
  exact ⟨rfl, rfl⟩
/-- A step that commits: the hypothesis of CommittedStepFetchedAnInstruction and of ParametersNeverChange. -/
theorem witness_CommittedStepFetchedAnInstruction : ∃ t, step (poke 0x0100 0x41#8 t0) = .next t := ⟨_, rfl⟩
theorem witness_UnimplementedOpcodeFaults : t0.pc.toNat < t0.params.memSize ∧ rowOf (t0.peek t0.pc.toNat) = none := ⟨by decide, rfl⟩
/-- Each clause at its boundary: the opcode at MEM_SIZE, the first operand byte at MEM_SIZE, the second at MEM_SIZE. -/
theorem witness_FetchFaultsInOrder :
    small.params.memSize ≤ ({ small with pc := 0x8000#16 }).pc.toNat ∧
    (∃ r, rowOf ((poke 0x7FFF 0x06#8 { small with pc := 0x7FFF#16 }).peek 0x7FFF) = some r ∧ 2 ≤ r.form.length) ∧
    small.params.memSize ≤ instrByteAddr { small with pc := 0x7FFF#16 } 1 ∧
    (∃ r, rowOf ((poke 0x7FFE 0x08#8 { small with pc := 0x7FFE#16 }).peek 0x7FFE) = some r ∧ r.form.length = 3) ∧
    instrByteAddr { small with pc := 0x7FFE#16 } 1 < small.params.memSize ∧
    small.params.memSize ≤ instrByteAddr { small with pc := 0x7FFE#16 } 2 :=
  ⟨by decide, ⟨_, rfl, by decide⟩, by decide, ⟨_, rfl, rfl⟩, by decide, by decide⟩
/-- Each of the three cases of OnlyTwoFaultsExist happens. -/
theorem witness_OnlyTwoFaultsExist :
    answers (step (poke 0x0100 0x41#8 t0)) = true ∧ stopsWith t0 (.unimplementedOpcode 0x00#8 0x0100#16) = true ∧
    stopsWith { small with pc := 0x8000#16 } (.outOfRangeAddress 0x8000 0x8000#16) = true := ⟨rfl, rfl, rfl⟩
theorem witness_OutOfRangeInTheFullSpace :
    t0.params.memSize = 65536 ∧
    step (poke 0xFFFF 0x06#8 { t0 with pc := 0xFFFF#16 }) = .fault (.outOfRangeAddress 0x10000 0xFFFF#16) := ⟨rfl, rfl⟩
/-- An instruction that commits: the hypothesis of PcAdvancesByTheLength, CyclesGrowByTheFixedCost, MemoryAfterAnInstruction and
OnlyTheNamedRegistersChange, on a canonical memory; and a call that stops. -/
theorem witness_PcAdvancesByTheLength :
    (∃ t, exec .pushAF t0 = .next t) ∧ t0.mem.wf = true ∧ (∃ t, exec (.ldHLSPN 0xFE#8) t0 = .next t) := ⟨⟨_, rfl⟩, rfl, ⟨_, rfl⟩⟩
theorem witness_CyclesGrowByTheFixedCost :
    (Instr.ldBN 0x00#8).opcode = (Instr.ldBN 0xFF#8).opcode ∧ (callStep t0).stop = some (.fault (.unimplementedOpcode 0x00#8 0x0100#16)) :=
  ⟨rfl, rfl⟩
theorem witness_MemoryAfterAnInstruction :
    (∃ t, exec (.ldAtNNSP 0xC300#16) t0 = .next t) ∧ 0xC302 ∉ storeAddrs (.ldAtNNSP 0xC300#16) t0 ∧ t0.mem.wf = true :=
  ⟨⟨_, rfl⟩, by decide, rfl⟩
theorem witness_OnlyTheNamedRegistersChange :
    (∃ t, exec (.ldAtNNSP 0xC300#16) t0 = .next t) ∧ Reg.h ∉ destRegs (.ldAtNNSP 0xC300#16) ∧ writesSp (.ldAtNNSP 0xC300#16) = false ∧
      writesFlags (.ldAtNNSP 0xC300#16) = false := ⟨⟨_, rfl⟩, by decide, rfl, rfl⟩
/-- Every class of the cost table has an instruction that completes. -/
theorem witness_ClassCycleCosts : ∀ row ∈ costsOfClasses, ∃ i, row.2 i ∧ ∃ t, exec i t0 = .next t := by
  simp only [costsOfClasses, List.forall_mem_cons]
  exact ⟨⟨_, ⟨.b, .c, rfl⟩, _, rfl⟩, ⟨_, ⟨.b, 0#8, rfl⟩, _, rfl⟩, ⟨_, ⟨.b, rfl⟩, _, rfl⟩, ⟨_, ⟨.b, rfl⟩, _, rfl⟩, ⟨_, ⟨0#8, rfl⟩, _, rfl⟩,
    ⟨_, .inl rfl, _, rfl⟩, ⟨_, ⟨0#16, .inl rfl⟩, _, rfl⟩, ⟨_, .inl rfl, _, rfl⟩, ⟨_, ⟨0#8, .inl rfl⟩, _, rfl⟩, ⟨_, .inl rfl, _, rfl⟩,
    ⟨_, ⟨0#16, .inl rfl⟩, _, rfl⟩, ⟨_, rfl, _, rfl⟩, ⟨_, ⟨0#8, rfl⟩, _, rfl⟩, ⟨_, ⟨0#16, rfl⟩, _, rfl⟩, ⟨_, .inl rfl, _, rfl⟩, by simp⟩
/-- Both cases of DataAccessesDecideTheOutcome, the second at the second write of a push. -/
theorem witness_DataAccessesDecideTheOutcome :
    firstOutOfRange t0.params.memSize (dataAddrs .pushAF t0) = none ∧
    firstOutOfRange small.params.memSize (dataAddrs .pushAF { small with sp := 0x0001#16 }) = some 0xFFFF := ⟨rfl, rfl⟩
theorem witness_OtherInstructionsIgnoreTheFlags : Instr.ldBC ≠ .pushAF ∧ writesFlags .ldBC = false := by decide
theorem witness_StepKeepsTheInvariant :
    State.Inv (poke 0x0100 0x77#8 t0) ∧ ∃ t, step (poke 0x0100 0x77#8 t0) = .next t := ⟨⟨rfl, rfl, rfl⟩, _, rfl⟩
theorem witness_FaultLeavesTheCallersState : step t0 = .fault (.unimplementedOpcode 0x00#8 0x0100#16) := by rfl
theorem witness_HostRunsKeepTheInvariant :
    State.Inv t0 ∧ State.Inv small ∧ ∀ x ∈ [DriverAction.step, .write 0x0100 0x41#8], x.keepsCpu = true :=
  ⟨⟨rfl, rfl, rfl⟩, ⟨rfl, rfl, rfl⟩, by decide⟩
/-- Three bytes at the end of memory, and a word of three bytes. -/
theorem witness_PlacedWordRunsNext :
    t0.mem.wf = true ∧ (∀ k, k < 3 → instrByteAddr { t0 with pc := 0xFFFD#16 } k < t0.params.memSize) ∧
    decodeTableWord 24 0xC23408 = some (.ldAtNNSP 0xC234#16) := by
  refine ⟨rfl, ?_, rfl⟩
  decide
theorem witness_StoredOpcodeIsFetchedNext :
    let s : State := { t0 with a := 0x41#8, h := 0x01#8, l := 0x01#8 }
    s.mem.wf = true ∧ encode .ldBC = [s.a] ∧ (hlAddress s).toNat < s.params.memSize ∧ hlAddress s = s.pc + 1#16 := by
  exact ⟨rfl, rfl, by decide, rfl⟩
/-- HL exists in T0 and does not in the small memory: LoadRegisterAtHl, StoreRegisterAtHl, StoreImmediateAtHl, LoadAccumulatorMovingHl
and StoreAccumulatorMovingHl; the small memory's first missing address is the boundary. -/
theorem witness_LoadRegisterAtHl :
    (hlAddress t0).toNat < t0.params.memSize ∧ t0.mem.wf = true ∧
    (hlAddress { small with h := 0x7F#8, l := 0xFF#8 }).toNat < small.params.memSize ∧
    small.params.memSize ≤ (hlAddress { small with h := 0x80#8, l := 0x00#8 }).toNat := by decide
/-- The forms of LoadAccumulator and StoreAccumulator, at addresses that exist and that do not. -/
theorem witness_LoadAccumulator :
    (bcAddress t0).toNat < t0.params.memSize ∧ (deAddress t0).toNat < t0.params.memSize ∧ (0xFFFF#16).toNat < t0.params.memSize ∧
    (ioAddress t0.c).toNat < t0.params.memSize ∧ (ioAddress 0xFF#8).toNat < t0.params.memSize ∧ t0.mem.wf = true ∧
    small.params.memSize ≤ (bcAddress { small with b := 0x80#8, c := 0x00#8 }).toNat ∧
    small.params.memSize ≤ (deAddress { small with d := 0x80#8, e := 0x00#8 }).toNat ∧ small.params.memSize ≤ (0x8000#16).toNat ∧
    small.params.memSize ≤ (ioAddress small.c).toNat ∧ small.params.memSize ≤ (ioAddress 0x00#8).toNat := by decide
theorem witness_DefaultFlagsOfLoadHlFromSp : Params.default.ldhlspFlags = [] ∧ (0xFF#8).toInt < 0 := by decide
/-- Both bytes exist; the first does not; only the second does not, at 0x10000 and at the end of a small memory; and Wrap. -/
theorem witness_StoreStackPointer :
    ((0xFFFE#16).toNat < t0.params.memSize ∧ addrPlus t0.params (0xFFFE#16).toNat 1 < t0.params.memSize ∧ t0.mem.wf = true) ∧
    small.params.memSize ≤ (0x8000#16).toNat ∧
    ((0xFFFF#16).toNat < t0.params.memSize ∧ t0.params.memSize ≤ addrPlus t0.params (0xFFFF#16).toNat 1) ∧
    ((0x7FFF#16).toNat < small.params.memSize ∧ small.params.memSize ≤ addrPlus small.params (0x7FFF#16).toNat 1) ∧
    addrPlus (t0With 65536 .wrap).params (0xFFFF#16).toNat 1 < 65536 := by decide
/-- Both slots exist; the first does not; only the second does not. -/
theorem witness_PushWritesHighThenLow :
    ((t0.sp - 1#16).toNat < t0.params.memSize ∧ (t0.sp - 2#16).toNat < t0.params.memSize ∧ t0.mem.wf = true) ∧
    small.params.memSize ≤ (small.sp - 1#16).toNat ∧
    (let s : State := { small with sp := 0x0001#16 }
     (s.sp - 1#16).toNat < s.params.memSize ∧ s.params.memSize ≤ (s.sp - 2#16).toNat) := by decide

end Sys2Proof.Tests
end

section
/-! PROOF. The family 10_state.md: the state after construction (R62), and register pairs as views of two byte registers (R51). -/

namespace Sys2Proof.Machine

/-! ### Construction -/

/-- Construction leaves 0x00 in every cell (20_memory.md R103). -/
@[simp] theorem State.construct_peek (p : Params) (a : Nat) : (State.construct p).peek a = 0x00#8 := rfl

/-- Settles O1: construction is `constructCpu` on a memory that lists no cell. -/
theorem resetLeavesEverythingZero : Obligations.ResetLeavesEverythingZero := by
  refine ⟨rfl, fun p => ⟨?get, ?pc, ?sp, ?flags, ?cycles, ?peek⟩⟩
  case get => exact State.constructCpu_get p Memory.construct
  case pc => exact State.constructCpu_pc p Memory.construct
  case sp => exact State.constructCpu_sp p Memory.construct
  case flags => exact State.constructCpu_flags p Memory.construct
  case cycles => exact State.constructCpu_cycles p Memory.construct
  case peek => exact State.construct_peek p

/-! ### Register pairs -/

/-- The registers of a pair are two. -/
theorem hi_ne_lo_of_mem_pairs {hi lo : Reg} (hpair : (hi, lo) ∈ [(Reg.b, Reg.c), (Reg.d, Reg.e), (Reg.h, Reg.l)]) : hi ≠ lo := by
  simp only [List.mem_cons, Prod.mk.injEq, List.not_mem_nil, or_false] at hpair
  obtain ⟨rfl, rfl⟩ | ⟨rfl, rfl⟩ | ⟨rfl, rfl⟩ := hpair <;> decide

theorem State.getPair_toNat (s : State) (hi lo : Reg) : (s.getPair hi lo).toNat = (s.get hi).toNat * 256 + (s.get lo).toNat :=
  pair_toNat _ _

theorem State.setPair_get_lo (s : State) (hi lo : Reg) (v : Word) : (s.setPair hi lo v).get lo = loByte v := by
  rw [State.setPair_get, if_pos rfl]

theorem State.setPair_get_other (s : State) (v : Word) {hi lo r : Reg} (hhi : r ≠ hi) (hlo : r ≠ lo) :
    (s.setPair hi lo v).get r = s.get r := by
  rw [State.setPair_get, if_neg hlo, if_neg hhi]

/-- A write of a pair is overwritten whole by writes of its two registers: it changes nothing else in the state. -/
theorem State.set_set_setPair (s : State) (hi lo : Reg) (v : Word) (x y : Byte) :
    ((s.setPair hi lo v).set hi x).set lo y = (s.set hi x).set lo y := by
  refine State.ext_get (fun r => ?_) ?_ ?_ ?_ ?_ ?_ ?_
  · by_cases hlo : r = lo
    · rw [hlo, State.set_get_same, State.set_get_same]
    · by_cases hhi : r = hi <;> simp [State.set_get, State.setPair_get, hlo, hhi]
  all_goals simp

section DistinctRegisters
variable {hi lo : Reg} (hne : hi ≠ lo) (s : State)
include hne

theorem State.setPair_get_hi (v : Word) : (s.setPair hi lo v).get hi = hiByte v := by
  rw [State.setPair_get, if_neg hne, if_pos rfl]

theorem State.getPair_set_hi_toNat (v : Byte) : ((s.set hi v).getPair hi lo).toNat = v.toNat * 256 + (s.get lo).toNat := by
  rw [State.getPair_toNat, State.set_get_same, State.set_get_other _ _ hne.symm]

theorem State.getPair_set_lo_toNat (v : Byte) : ((s.set lo v).getPair hi lo).toNat = (s.get hi).toNat * 256 + v.toNat := by
  rw [State.getPair_toNat, State.set_get_same, State.set_get_other _ _ hne]

end DistinctRegisters

/-- Settles O7: all that R51 says of a pair follows from its two registers being distinct. -/
theorem registerPairsAreViews : Obligations.RegisterPairsAreViews := by
  intro s hi lo hpair
  have hne := hi_ne_lo_of_mem_pairs hpair
  refine ⟨s.getPair_toNat hi lo, fun v => ⟨?hi, ?lo, ?back, ?others, ?state⟩,
    fun v => ⟨State.getPair_set_hi_toNat hne s v, State.getPair_set_lo_toNat hne s v⟩⟩
  case hi => rw [State.setPair_get_hi hne, hiByte_toNat]
  case lo => rw [State.setPair_get_lo, loByte_toNat]
  case back => exact State.getPair_setPair hne s v
  case others => exact fun r hhi hlo => s.setPair_get_other v hhi hlo
  case state => exact s.set_set_setPair hi lo v

end Sys2Proof.Machine
end

section
/-! PROOF. The family 20_memory.md: a read of memory (R101). -/

namespace Sys2Proof.Machine

/-- Settles O4: an address is below MEM_SIZE or not, and the laws of `memRead` say what it answers on either side. -/
theorem memoryReadContract : Obligations.MemoryReadContract := by
  intro a s
  constructor
  case left => exact memRead_of_lt
  case right => exact memRead_of_ge

end Sys2Proof.Machine
end

section
/-! PROOF. The family 30_encoding.md: the length of an instruction (R150). -/

namespace Sys2Proof.Laws.Encoded

/-- Every instruction's encoding is one well-formed instruction in bytes: the laws above, in the order of the constructors. -/
theorem statement (i : Instr) : Statement i := by
  cases i
  exacts [ldBB, ldBC, ldBD, ldBE, ldBH, ldBL, ldBA, ldCB, ldCC, ldCD, ldCE, ldCH, ldCL, ldCA, ldDB, ldDC, ldDD, ldDE, ldDH,
    ldDL, ldDA, ldEB, ldEC, ldED, ldEE, ldEH, ldEL, ldEA, ldHB, ldHC, ldHD, ldHE, ldHH, ldHL, ldHA, ldLB, ldLC, ldLD, ldLE,
    ldLH, ldLL, ldLA, ldAB, ldAC, ldAD, ldAE, ldAH, ldAL, ldAA, ldBN _, ldCN _, ldDN _, ldEN _, ldHN _, ldLN _, ldAN _, ldBAtHL,
    ldCAtHL, ldDAtHL, ldEAtHL, ldHAtHL, ldLAtHL, ldAAtHL, ldAtHLB, ldAtHLC, ldAtHLD, ldAtHLE, ldAtHLH, ldAtHLL, ldAtHLA,
    ldAtHLN _, ldAtBCA, ldAAtBC, ldAtDEA, ldAAtDE, ldAtNNA _, ldAAtNN _, ldIoNA _, ldIoCA, ldAIoN _, ldAIoC, ldAtHLIncA,
    ldAAtHLInc, ldAtHLDecA, ldAAtHLDec, ldBCNN _, ldDENN _, ldHLNN _, ldSPNN _, ldSPHL, ldHLSPN _, ldAtNNSP _, pushBC, pushDE,
    pushHL, pushAF]

end Sys2Proof.Laws.Encoded

namespace Sys2Proof

/-! ### Lengths -/

theorem opcodeLength_mem (op : Byte) : opcodeLength op ∈ [1, 2, 3] := by
  unfold opcodeLength
  split_ifs <;> decide

theorem length_of_wellFormedBytes {op : Byte} {operands : List Byte} (hwf : wellFormedBytes (op :: operands) = true) :
    (op :: operands).length = opcodeLength op := by
  simp only [wellFormedBytes, Bool.and_eq_true, decide_eq_true_eq] at hwf
  exact hwf.2

@[simp] theorem encode_head? (i : Instr) : (encode i).head? = some i.opcode := rfl

theorem encode_length (i : Instr) : (encode i).length = i.length := (Laws.Encoded.statement i).2

/-- The opcode alone gives the length of an instruction (30_encoding.md R150). -/
theorem encode_length_eq_opcodeLength (i : Instr) : (encode i).length = opcodeLength i.opcode :=
  length_of_wellFormedBytes (Laws.Encoded.statement i).1

theorem Instr.length_eq_opcodeLength (i : Instr) : i.length = opcodeLength i.opcode := by
  rw [← encode_length, encode_length_eq_opcodeLength]

/-! ### What decodes -/

/-- A row that encodes back gives its own opcode and the operand bytes it takes from a list. -/
theorem Row.Encodes.of_takeOperands {r : Row} (henc : r.Encodes) {bs rest : List Byte} {i : Instr}
    (htake : takeOperands r bs = .ok (i, rest)) : r.opcode :: bs = encode i ++ rest := by
  obtain ⟨op, cost, form⟩ := r
  cases form with
  | f1 j =>
    cases htake
    exact congrArg (· ++ bs) henc.symm
  | f2 make =>
    match bs, htake with
    | n :: tail, rfl => exact congrArg (· ++ tail) (henc n).symm
  | f3 make =>
    match bs, htake with
    | lo :: hi :: _, rfl => rw [henc, loByte_pair, hiByte_pair]; rfl

/-- Bytes that decode are the encoding of what they decode to, and what is left. -/
theorem eq_encode_append_of_decode {bs rest : List Byte} {i : Instr} (hdec : decode bs = .ok (i, rest)) : bs = encode i ++ rest := by
  cases bs with
  | nil => cases hdec
  | cons op bs =>
    simp only [decode] at hdec
    split at hdec
    · cases hdec
    · next r hrow =>
      obtain ⟨rfl, henc⟩ := rowOf_encodes hrow
      exact henc.of_takeOperands hdec

theorem opcode_of_decode {op : Byte} {bs rest : List Byte} {i : Instr} (hdec : decode (op :: bs) = .ok (i, rest)) : i.opcode = op :=
  (List.cons.inj (eq_encode_append_of_decode hdec)).1.symm

theorem length_of_decode {bs rest : List Byte} {i : Instr} (hdec : decode bs = .ok (i, rest)) :
    bs.length = i.length + rest.length := by
  rw [eq_encode_append_of_decode hdec, List.length_append, encode_length]

/-- Settles O19: the list of lengths by opcode byte gives the length of what is encoded, and what decodes was encoded. -/
theorem opcodeAloneGivesTheLength : Obligations.OpcodeAloneGivesTheLength := by
  refine ⟨fun i => ⟨?length, (encode_length i).symm, encode_head? i⟩, fun i j hhead => ?encoded,
    fun op bs cs bs' cs' i j hi hj => ⟨opcode_of_decode hi, ?decoded, length_of_decode hi⟩⟩
  case length =>
    rw [encode_length_eq_opcodeLength]
    exact opcodeLength_mem i.opcode
  case encoded =>
    have hop : i.opcode = j.opcode := Option.some.inj hhead
    rw [encode_length_eq_opcodeLength, encode_length_eq_opcodeLength, hop]
  case decoded =>
    rw [i.length_eq_opcodeLength, j.length_eq_opcodeLength, opcode_of_decode hi, opcode_of_decode hj]

end Sys2Proof
end

section
/-! PROOF. The family 40_step.md: the pair addresses and the moves of HL (R209, R210), the two-byte address (R211), the flag
helpers (R212 to R215), and the cycle cost of a committed step (R206). -/

namespace Sys2Proof

/-! ### The cost of an instruction -/

/-- DECODE has an entry for the opcode of every instruction, since the length read from it is not 0. -/
theorem rowOf_opcode_isSome (i : Instr) : ∃ r, rowOf i.opcode = some r := by
  rw [← Option.ne_none_iff_exists']
  intro hnone
  have hlen : i.length = 0 := by simp only [Instr.length, hnone]
  have hmem := opcodeLength_mem i.opcode
  rw [← i.length_eq_opcodeLength, hlen] at hmem
  simp at hmem

theorem Instr.cost_of_rowOf {i : Instr} {r : Row} (hrow : rowOf i.opcode = some r) : i.cost = r.cost := by
  simp only [Instr.cost, hrow]

/-- The cost depends on the opcode byte only (40_step.md R206). -/
theorem Instr.cost_eq_of_opcode_eq {i j : Instr} (hop : i.opcode = j.opcode) : i.cost = j.cost := by
  simp only [Instr.cost, hop]

theorem decodeRows_cost_mem : ∀ r ∈ decodeRows, r.cost ∈ [4, 8, 12, 16, 20] := by decide

theorem Instr.cost_mem (i : Instr) : i.cost ∈ [4, 8, 12, 16, 20] := by
  obtain ⟨r, hrow⟩ := rowOf_opcode_isSome i
  rw [Instr.cost_of_rowOf hrow]
  exact decodeRows_cost_mem r (rowOf_some hrow).1

end Sys2Proof

namespace Sys2Proof.Machine

/-! ### The pair addresses and HL -/

/-- Settles O8: each address is a pair of registers read as one word. -/
theorem pairAddressIsHighTimes256PlusLow : Obligations.PairAddressIsHighTimes256PlusLow :=
  fun s => ⟨s.getPair_toNat .h .l, s.getPair_toNat .b .c, s.getPair_toNat .d .e⟩

/-- The second of two writes of a pair is the one that counts. -/
theorem State.setPair_setPair (s : State) (hi lo : Reg) (v w : Word) :
    (s.setPair hi lo v).setPair hi lo w = s.setPair hi lo w :=
  s.set_set_setPair hi lo v (hiByte w) (loByte w)

theorem incrementHl_decrementHl (s : State) : incrementHl (decrementHl s) = s := by
  rw [incrementHl, hlAddress_decrementHl, BitVec.sub_add_cancel, decrementHl, State.setPair_setPair, setPair_hlAddress]

theorem decrementHl_incrementHl (s : State) : decrementHl (incrementHl s) = s := by
  rw [decrementHl, hlAddress_incrementHl, BitVec.add_sub_cancel, incrementHl, State.setPair_setPair, setPair_hlAddress]

theorem hlAddress_incrementHl_toNat (s : State) : (hlAddress (incrementHl s)).toNat = ((hlAddress s).toNat + 1) % 65536 := by
  rw [hlAddress_incrementHl]
  bv_omega

theorem hlAddress_decrementHl_toNat (s : State) : (hlAddress (decrementHl s)).toNat = ((hlAddress s).toNat + 65535) % 65536 := by
  rw [hlAddress_decrementHl]
  bv_omega

/-- Settles O9: both moves are a write of the pair HL, at the old HL plus or minus 1. -/
theorem hlIncrementDecrement : Obligations.HlIncrementDecrement := by
  refine fun s => ⟨hlAddress_incrementHl_toNat s, hlAddress_decrementHl_toNat s, incrementHl_decrementHl s,
    decrementHl_incrementHl s, fun v w => ⟨?increment, ?decrement⟩⟩
  case increment => exact s.set_set_setPair .h .l (hlAddress s + 1#16) v w
  case decrement => exact s.set_set_setPair .h .l (hlAddress s - 1#16) v w

/-! ### The two-byte address -/

theorem twoByteAddress_of_lt {base : Nat} {s : State} (hlo : base < s.params.memSize)
    (hhi : addrPlus s.params base 1 < s.params.memSize) :
    twoByteAddress base s = .next (pair (s.peek (addrPlus s.params base 1)) (s.peek base)) :=
  twoByteAddress_eq_next.mpr ⟨hlo, hhi, rfl⟩

/-- A value stored low byte first at two different cells reads back: the second write leaves the first cell alone. -/
theorem pair_read_write_write {lo hi : Nat} (hne : lo ≠ hi) (v : Word) {m : Memory} (hwf : m.wf = true) :
    pair (((m.write lo (loByte v)).write hi (hiByte v)).read hi) (((m.write lo (loByte v)).write hi (hiByte v)).read lo) = v := by
  rw [Memory.read_write_same _ (Memory.wf_write lo (loByte v) hwf), Memory.read_write_other hne, Memory.read_write_same _ hwf,
    pair_hiByte_loByte]

/-- Storing `v` low byte first at `base` and reading it back gives `v` (40_step.md R211). -/
theorem twoByteAddress_after_stores {base : Nat} {s : State} (hlo : base < s.params.memSize)
    (hhi : addrPlus s.params base 1 < s.params.memSize) (v : Word) (hwf : s.mem.wf = true) (hbase : base < 65536) :
    andThen (memWrite base (loByte v) s) (fun s₁ =>
      andThen (memWrite (addrPlus s.params base 1) (hiByte v) s₁) (twoByteAddress base)) = .next v := by
  rw [memWrite_of_lt hlo, andThen_next, memWrite_of_lt (s := s.setMem (s.mem.write base (loByte v))) hhi, andThen_next]
  have hback := pair_read_write_write (addrPlus_one_ne s.params base hbase).symm v hwf
  exact twoByteAddress_eq_next.mpr ⟨hlo, hhi, hback.symm⟩

/-- Settles O10: which of the two addresses exist decides the answer, and the operand fetch of two bytes is this read by definition. -/
theorem twoByteAddressIsLittleEndian : Obligations.TwoByteAddressIsLittleEndian := by
  intro s base
  refine ⟨fun hlo hhi => ⟨⟨_, twoByteAddress_of_lt hlo hhi, pair_toNat _ _⟩, ?roundTrip⟩, ?first, ?second, ?fetch⟩
  case roundTrip => exact twoByteAddress_after_stores hlo hhi
  case first => exact twoByteAddress_of_ge
  case second => exact twoByteAddress_of_ge_second
  case fetch => exact fun _ => rfl

/-! ### The flag helpers -/

/-- The low 8 bits of an integer are zero exactly when 256 divides it. -/
theorem ofInt8_eq_zero_iff (v : Int) : BitVec.ofInt 8 v = 0x00#8 ↔ v % 256 = 0 := by
  rw [← BitVec.toNat_inj, BitVec.toNat_ofInt]
  simp only [BitVec.toNat_ofNat]
  omega

/-- Bit 4 of an integer, negative ones too, by floor division. -/
theorem intBit_four (v : Int) : intBit v 4 = decide (v / 16 % 2 = 1) := by
  rw [intBit, ← BitVec.testBit_toNat, Nat.testBit_eq_decide_div_mod_eq, BitVec.toNat_ofInt, decide_eq_decide]
  omega

theorem getLsbD_three (b : Byte) : b.getLsbD 3 = decide (b.toNat / 8 % 2 = 1) := by
  rw [← BitVec.testBit_toNat, Nat.testBit_eq_decide_div_mod_eq]

theorem halfCarryOf_eq (orig : Byte) (result : Int) :
    halfCarryOf orig result = decide (orig.toNat / 8 % 2 = 1 ∧ result / 16 % 2 = 1) := by
  rw [halfCarryOf, getLsbD_three, intBit_four, Bool.decide_and]

theorem adjustZeroFlag_eq (result : Int) (s : State) :
    adjustZeroFlag result s = s.setFlags ⟨decide (result % 256 = 0), s.flags.n, s.flags.h, s.flags.c⟩ := by
  simp only [adjustZeroFlag, ofInt8_eq_zero_iff]

/-- Settles O11: each helper replaces the flags, and every flag but its own by itself; the zero helper's test is of the result modulo 256. -/
theorem flagHelpersChangeOneFlag : Obligations.FlagHelpersChangeOneFlag :=
  fun s result => ⟨rfl, rfl, rfl, rfl, adjustZeroFlag_eq result s, rfl, rfl⟩

/-- Settles O12: both bits are read by division. -/
theorem halfCarryHeuristic : Obligations.HalfCarryHeuristic := by
  intro s orig result
  rw [← halfCarryOf_eq]
  rfl

/-! ### The cycle counter -/

/-- A call that stops leaves its caller's state (40_step.md R207). -/
theorem viewOf_state_of_stop {before : State} {r : Result State} (hstop : (viewOf before r).stop ≠ none) :
    (viewOf before r).state = before := by
  cases r with
  | next t => exact absurd rfl hstop
  | fault x => rfl
  | refused x => rfl

/-- Settles O29: the counter's part of what any instruction answers, the costs of the table, and the state a stopped call leaves. -/
theorem cyclesGrowByTheFixedCost : Obligations.CyclesGrowByTheFixedCost := by
  refine ⟨?committed, Instr.cost_mem, fun _ _ => Instr.cost_eq_of_opcode_eq, ?stopped⟩
  case committed => exact fun i s t hexec => (exec_next i s t hexec).cycles
  case stopped => exact fun s hstop => congrArg State.cycles (viewOf_state_of_stop hstop)

end Sys2Proof.Machine
end

section
/-! PROOF. The family 60_exceptions.md: an opcode byte without an entry in DECODE (R601). -/

namespace Sys2Proof.Machine

/-- A fault of the fetch is the fault of the step: nothing is executed after it. -/
theorem step_of_fetchInstr_fault {s : State} {x : Fault} (hfetch : fetchInstr s = .fault x) : step s = .fault x := by
  rw [step, hfetch, andThen_fault]

/-- The caller of a step that faults keeps its state and is told the fault (60_exceptions.md R605). -/
theorem callStep_of_step_fault {s : State} {x : Fault} (hstep : step s = .fault x) : callStep s = ⟨s, some (.fault x)⟩ := by
  rw [callStep, hstep, viewOf]

/-- The decode of a byte without an entry raises the fault and reads no operand byte (40_step.md R203). -/
theorem fetchDecoded_of_rowOf_none {op : Byte} (hnone : rowOf op = none) (s : State) :
    fetchDecoded op s = .fault (.unimplementedOpcode op s.pc) := by
  simp only [fetchDecoded, hnone, raiseUnimplementedOpcode]

/-- Settles O24: the opcode byte exists, so the fetch goes on to its decode, where the step stops. -/
theorem unimplementedOpcodeFaults : Obligations.UnimplementedOpcodeFaults := by
  intro s hpc hnone
  have hfetch : fetchInstr s = .fault (.unimplementedOpcode (s.peek s.pc.toNat) s.pc) := by
    rw [fetchInstr, memRead_of_lt hpc, andThen_next, fetchDecoded_of_rowOf_none hnone]
  have hstep := step_of_fetchInstr_fault hfetch
  exact ⟨hstep, callStep_of_step_fault hstep⟩

end Sys2Proof.Machine
end

section
/-! PROOF. The family 70_reset_and_hazards.md: the cycle cost of each class (R707). -/

namespace Sys2Proof

/-! ### The cost of the classes whose members differ only in a register -/

theorem Instr.cost_ldRR (dst src : OpReg) : (Instr.ldRR dst src).cost = 4 := by
  cases dst <;> cases src <;> rfl

theorem Instr.cost_ldRN (dst : OpReg) (n : Byte) : (Instr.ldRN dst n).cost = 8 := by
  cases dst <;> rfl

theorem Instr.cost_ldRAtHL (dst : OpReg) : (Instr.ldRAtHL dst).cost = 8 := by
  cases dst <;> rfl

theorem Instr.cost_ldAtHLR (src : OpReg) : (Instr.ldAtHLR src).cost = 8 := by
  cases src <;> rfl

end Sys2Proof

namespace Sys2Proof.Claims

/-! ### The timing table -/

/-- The fixed cost of an instruction is that of its class: DECODE agrees with the timing table, class by class (70_reset_and_hazards.md
R707). -/
theorem cost_of_mem_costsOfClasses : ∀ row ∈ costsOfClasses, ∀ i : Instr, row.2 i → i.cost = row.1 := by
  simp only [costsOfClasses, List.forall_mem_cons]
  refine ⟨?registerToRegister, ?immediate, ?loadAtHl, ?storeAtHl, ?immediateAtHl, ?accumulatorAtPair, ?accumulatorAtNN, ?ioAtC, ?ioAtN,
    ?accumulatorMovingHl, ?pairImmediate, ?spFromHl, ?hlFromSp, ?storeSp, ?push, List.forall_mem_nil _⟩
  case registerToRegister =>
    rintro _ ⟨dst, src, rfl⟩
    exact Instr.cost_ldRR dst src
  case immediate =>
    rintro _ ⟨dst, n, rfl⟩
    exact Instr.cost_ldRN dst n
  case loadAtHl =>
    rintro _ ⟨dst, rfl⟩
    exact Instr.cost_ldRAtHL dst
  case storeAtHl =>
    rintro _ ⟨src, rfl⟩
    exact Instr.cost_ldAtHLR src
  case immediateAtHl => rintro _ ⟨n, rfl⟩; rfl
  case accumulatorAtPair => rintro _ (rfl | rfl | rfl | rfl) <;> rfl
  case accumulatorAtNN => rintro _ ⟨nn, rfl | rfl⟩ <;> rfl
  case ioAtC => rintro _ (rfl | rfl) <;> rfl
  case ioAtN => rintro _ ⟨n, rfl | rfl⟩ <;> rfl
  case accumulatorMovingHl => rintro _ (rfl | rfl | rfl | rfl) <;> rfl
  case pairImmediate => rintro _ ⟨nn, rfl | rfl | rfl | rfl⟩ <;> rfl
  case spFromHl => rintro _ rfl; rfl
  case hlFromSp => rintro _ ⟨n, rfl⟩; rfl
  case storeSp => rintro _ ⟨nn, rfl⟩; rfl
  case push => rintro _ (rfl | rfl | rfl | rfl) <;> rfl

end Sys2Proof.Claims

namespace Sys2Proof.Machine

open Sys2Proof.Claims

/-- Settles O30: a committed step adds its instruction's fixed cost, which is the cost of the instruction's class. -/
theorem classCycleCosts : Obligations.ClassCycleCosts := by
  intro row hrow i hclass s t hexec
  rw [(exec_next i s t hexec).cycles, cost_of_mem_costsOfClasses row hrow i hclass]

end Sys2Proof.Machine
end

section
/-! PROOF. The encoding (30_encoding.md): decoding and encoding are inverse to each other, and which bytes are illegal. -/

namespace Sys2Proof

/-! ### Decoding by the row of the opcode -/

section RowForms
variable {op : Byte} {cost : Nat}

theorem decode_of_form1 {i : Instr} (hrow : rowOf op = some ⟨op, cost, .f1 i⟩) (rest : List Byte) :
    decode (op :: rest) = .ok (i, rest) := by
  simp only [decode, hrow, takeOperands]

theorem decode_of_form2 {make : Byte → Instr} (hrow : rowOf op = some ⟨op, cost, .f2 make⟩) (n : Byte) (rest : List Byte) :
    decode (op :: n :: rest) = .ok (make n, rest) := by
  simp only [decode, hrow, takeOperands]

/-- Two operand bytes are the low and the high byte of the operand, and the decoder puts them together again. -/
theorem decode_of_form3 {make : Word → Instr} (hrow : rowOf op = some ⟨op, cost, .f3 make⟩) (nn : Word) (rest : List Byte) :
    decode (op :: loByte nn :: hiByte nn :: rest) = .ok (make nn, rest) := by
  simp only [decode, hrow, takeOperands, pair_hiByte_loByte]

end RowForms

/-- Decoding an encoding gives the instruction and what follows: its row is in DECODE, and the row's form takes its operands back. -/
theorem decode_encode_append (i : Instr) (rest : List Byte) : decode (encode i ++ rest) = .ok (i, rest) := by
  cases i with
  | ldBCNN nn | ldDENN nn | ldHLNN nn | ldSPNN nn | ldAtNNSP nn | ldAtNNA nn | ldAAtNN nn => exact decode_of_form3 rfl nn rest
  | ldBN n | ldCN n | ldDN n | ldEN n | ldHN n | ldLN n | ldAN n | ldAtHLN n | ldIoNA n | ldAIoN n | ldHLSPN n =>
    exact decode_of_form2 rfl n rest
  | _ => exact decode_of_form1 rfl rest

theorem decode_encode (i : Instr) : decode (encode i) = .ok (i, []) := by
  rw [← List.append_nil (encode i), decode_encode_append]

/-- Settles O16: by the form of the instruction's row. -/
theorem decodeOfEncode : Obligations.DecodeOfEncode := decode_encode_append

/-- Settles O17: the row found for the opcode encodes back to that opcode and the operand bytes it took. -/
theorem decodedBytesAreTheEncoding : Obligations.DecodedBytesAreTheEncoding :=
  fun _ _ _ => eq_encode_append_of_decode

/-- Settles O21: the seven words are looked up in DECODE. -/
theorem writtenOutWordsDecode : Obligations.WrittenOutWordsDecode := by
  refine ⟨decode_of_form2 rfl 0xFE#8 [], decode_of_form1 rfl [], decode_of_form1 rfl [], decode_of_form1 rfl [],
    decode_of_form3 rfl 0xC234#16 [], decode_of_form1 rfl [], rfl⟩

/-! ### The illegal bytes -/

/-- A row of DECODE makes some instruction of its own opcode and length. -/
theorem Row.Encodes.exists_instr {r : Row} (henc : r.Encodes) : ∃ i : Instr, i.opcode = r.opcode ∧ i.length = r.form.length := by
  obtain ⟨op, cost, form⟩ := r
  have of_encode {i : Instr} {operands : List Byte} (h : encode i = op :: operands) :
      i.opcode = op ∧ i.length = operands.length + 1 :=
    ⟨(List.cons.inj h).1, by rw [← encode_length, h, List.length_cons]⟩
  cases form with
  | f1 i => exact ⟨i, of_encode henc⟩
  | f2 make => exact ⟨make 0x00#8, of_encode (henc 0x00#8)⟩
  | f3 make => exact ⟨make 0x0000#16, of_encode (henc 0x0000#16)⟩

theorem Instr.legalOpcode_opcode (i : Instr) : legalOpcode i.opcode = true := by
  have hwf := (Laws.Encoded.statement i).1
  simp only [encode, wellFormedBytes, Bool.and_eq_true] at hwf
  exact hwf.1

/-- An opcode of DECODE is not in the list of illegal bytes. -/
theorem not_mem_illegalOpcodes_of_mem_decodeRows {r : Row} (hr : r ∈ decodeRows) : r.opcode ∉ illegalOpcodes := by
  obtain ⟨i, hop, -⟩ := (decodeRows_encode r hr).exists_instr
  rw [← hop]
  exact of_decide_eq_true i.legalOpcode_opcode

/-- The list of illegal bytes is in rising order. -/
theorem illegalOpcodes_rising : illegalOpcodes.Pairwise (· < ·) := by
  rw [← List.isChain_iff_pairwise]
  simp [illegalOpcodes, illegalOpcodes0, illegalOpcodes1, illegalOpcodes2, illegalOpcodes3]

/-- DECODE is in the rising order of its opcodes. -/
theorem decodeRows_opcodes_rising : (decodeRows.map Row.opcode).Pairwise (· < ·) := by
  rw [← List.isChain_iff_pairwise]
  simp [decodeRows, decodeRows0, decodeRows1, decodeRows2, decodeRows3, decodeRows4, decodeRows5, decodeRows6, decodeRows7]

/-- DECODE and the list of illegal bytes leave no byte out: 96 and 160 different bytes are all 256. -/
theorem mem_illegalOpcodes_or_mem_opcodes (op : Byte) : op ∈ illegalOpcodes ∨ op ∈ decodeRows.map Row.opcode := by
  have hnodup : (illegalOpcodes ++ decodeRows.map Row.opcode).Nodup := by
    refine List.nodup_append.mpr ⟨illegalOpcodes_rising.nodup, decodeRows_opcodes_rising.nodup, ?_⟩
    rintro x hx _ hy rfl
    obtain ⟨r, hr, rfl⟩ := List.mem_map.mp hy
    exact not_mem_illegalOpcodes_of_mem_decodeRows hr hx
  have hcard : (illegalOpcodes ++ decodeRows.map Row.opcode).toFinset.card = Fintype.card Byte := by
    rw [List.toFinset_card_of_nodup hnodup, ← FinEnum.card_eq_fintypeCard, FinEnum.card_bitVec, List.length_append,
      List.length_map, show illegalOpcodes.length = 160 from rfl, show decodeRows.length = 96 from rfl]
    rfl
  have hmem : op ∈ (illegalOpcodes ++ decodeRows.map Row.opcode).toFinset := by
    rw [(Finset.card_eq_iff_eq_univ _).mp hcard]
    exact Finset.mem_univ op
  exact List.mem_append.mp (List.mem_toFinset.mp hmem)

/-- A byte is illegal exactly when DECODE has no entry for it (30_encoding.md R157). -/
theorem mem_illegalOpcodes_iff {op : Byte} : op ∈ illegalOpcodes ↔ rowOf op = none := by
  constructor
  case mp =>
    intro hillegal
    refine findRow_none.mpr fun r hr hop => ?_
    exact not_mem_illegalOpcodes_of_mem_decodeRows hr (hop ▸ hillegal)
  case mpr =>
    intro hnone
    refine (mem_illegalOpcodes_or_mem_opcodes op).resolve_right fun hmem => ?_
    obtain ⟨r, hr, hop⟩ := List.mem_map.mp hmem
    exact findRow_none.mp hnone r hr hop

/-- The decoder rejects a list by the name of its opcode exactly when DECODE has no entry for the opcode. -/
theorem decode_eq_unimplemented_iff {op : Byte} {rest : List Byte} :
    decode (op :: rest) = .error (.unimplemented op) ↔ rowOf op = none := by
  cases hrow : rowOf op with
  | none => simp [decode, hrow]
  | some r =>
    obtain ⟨opcode, cost, form⟩ := r
    cases form with
    | f1 i => simp [decode, hrow, takeOperands]
    | f2 make => cases rest <;> simp [decode, hrow, takeOperands]
    | f3 make =>
      match rest with
      | [] | [_] | _ :: _ :: _ => simp [decode, hrow, takeOperands]

/-- Settles O18: the illegal bytes are those without an entry in DECODE, and only these are rejected by name. -/
theorem exactlyTheListedBytesAreIllegal : Obligations.ExactlyTheListedBytesAreIllegal :=
  ⟨fun _ _ => mem_illegalOpcodes_iff.trans decode_eq_unimplemented_iff.symm, rfl, illegalOpcodes_rising.nodup⟩

/-! ### Well-formed bytes -/

theorem exists_rowOf_of_legalOpcode {op : Byte} (hlegal : legalOpcode op = true) : ∃ r, rowOf op = some r :=
  Option.ne_none_iff_exists'.mp fun hnone => of_decide_eq_true hlegal (mem_illegalOpcodes_iff.mpr hnone)

theorem form_length_of_rowOf {op : Byte} {r : Row} (hrow : rowOf op = some r) : r.form.length = opcodeLength op := by
  obtain ⟨rfl, henc⟩ := rowOf_encodes hrow
  obtain ⟨i, hop, hlen⟩ := henc.exists_instr
  rw [← hlen, i.length_eq_opcodeLength, hop]

/-- As many operand bytes as the form asks for make an instruction, with nothing left. -/
theorem exists_takeOperands {r : Row} {operands : List Byte} (hlen : operands.length + 1 = r.form.length) :
    ∃ i, takeOperands r operands = .ok (i, []) := by
  obtain ⟨op, cost, form⟩ := r
  cases form with
  | f1 i =>
    match operands, hlen with
    | [], _ => exact ⟨i, rfl⟩
  | f2 make =>
    match operands, hlen with
    | [n], _ => exact ⟨make n, rfl⟩
  | f3 make =>
    match operands, hlen with
    | [lo, hi], _ => exact ⟨make (pair hi lo), rfl⟩

/-- Settles O20: a legal opcode has a row, whose form asks for the operand bytes that are there; and what decodes is an encoding. -/
theorem wellFormedBytesAreTheDecodable : Obligations.WellFormedBytesAreTheDecodable := by
  intro bs
  constructor
  case mp =>
    intro hwf
    match bs, hwf with
    | op :: operands, hwf =>
      have hlen := length_of_wellFormedBytes hwf
      simp only [wellFormedBytes, Bool.and_eq_true] at hwf
      obtain ⟨r, hrow⟩ := exists_rowOf_of_legalOpcode hwf.1
      simp only [decode, hrow]
      exact exists_takeOperands (by rw [form_length_of_rowOf hrow, ← hlen, List.length_cons])
  case mpr =>
    rintro ⟨i, hdec⟩
    rw [eq_encode_append_of_decode hdec, List.append_nil]
    exact (Laws.Encoded.statement i).1

end Sys2Proof
end

section
/-! PROOF. Memory as canonical data (20_memory.md R100 to R103), the stack (40_step.md R216) and the invariant at construction. -/

namespace Sys2Proof.Machine

/-! ### Construction -/

theorem State.inv_construct {p : Params} (hwf : p.wf = true) : (State.construct p).Inv := ⟨hwf, rfl, rfl⟩

/-- Settles O2: construction lists no cell. -/
theorem constructionMeetsInvariant : Obligations.ConstructionMeetsInvariant :=
  ⟨State.inv_construct rfl, fun _ => State.inv_construct⟩

/-- Settles O3: every cell of the fresh memory is 0x00, an opcode byte without an entry in DECODE. -/
theorem unloadedMachineFaultsAtOnce : Obligations.UnloadedMachineFaultsAtOnce :=
  (unimplementedOpcodeFaults State.reset (by decide) rfl).1

/-! ### A write of memory -/

@[simp] theorem State.setMem_peek_same {s : State} (hwf : s.mem.wf = true) (a : Nat) (v : Byte) :
    (s.setMem (s.mem.write a v)).peek a = v :=
  Memory.read_write_same v hwf

theorem State.setMem_peek_other (s : State) {a x : Nat} (hne : x ≠ a) (v : Byte) :
    (s.setMem (s.mem.write a v)).peek x = s.peek x :=
  Memory.read_write_other hne v s.mem

/-- Settles O5: the laws of `memWrite` on either side of MEM_SIZE, and of a read after a write. -/
theorem memoryWriteContract : Obligations.MemoryWriteContract := by
  refine fun a v s => ⟨fun hlt => ⟨_, memWrite_of_lt hlt, ?others, rfl, fun hwf => ⟨?same, ?canonical⟩⟩, memWrite_of_ge⟩
  case others => exact fun x hne => s.setMem_peek_other hne v
  case same => exact State.setMem_peek_same hwf a v
  case canonical => exact Memory.wf_write a v hwf

/-- Settles O14: a push is a write at the SP one lower. -/
theorem pushToStackDecrementsThenWrites : Obligations.PushToStackDecrementsThenWrites := by
  refine fun v s => ⟨fun hlt => ⟨_, pushToStack_eq_next.mpr ⟨hlt, rfl⟩, ?sp, ?others, rfl, ?same⟩, pushToStack_of_ge⟩
  case sp =>
    rw [State.setMem_sp, State.setSp_sp]
    bv_omega
  case others => exact fun x hne => Memory.read_write_other hne v s.mem
  case same => exact fun hwf => Memory.read_write_same v hwf

/-! ### The canonical form is unique -/

/-- A memory that reads as another does at the first cell of that other is canonical from no address above that cell. -/
theorem Memory.le_of_read_head_eq {lo a : Nat} {v : Byte} {m m' : Memory} (hv : v ≠ 0#8) (hwf : Memory.wfFrom lo m' = true)
    (hread : Memory.read a ((a, v) :: m) = Memory.read a m') : lo ≤ a := by
  by_contra hlt
  rw [Memory.read_of_lt (Nat.lt_of_not_le hlt) hwf] at hread
  exact hv (by simpa [Memory.read] using hread)

/-- The rest of a canonical memory reads 0x00 up to the first cell, and as the whole above it. -/
theorem Memory.read_tail {a x : Nat} {v : Byte} {m : Memory} (hwf : Memory.wfFrom (a + 1) m = true) :
    Memory.read x m = if x ≤ a then 0#8 else Memory.read x ((a, v) :: m) := by
  split
  · next hle => exact Memory.read_of_lt (Nat.lt_succ_of_le hle) hwf
  · next hnle =>
    have hne : a ≠ x := by omega
    simp [Memory.read, hne]

/-- Memories canonical from one address that read alike are one list: their first cells are at the same address with the same byte. -/
theorem Memory.eq_of_read_eq {lo : Nat} {m₁ m₂ : Memory} (hwf₁ : Memory.wfFrom lo m₁ = true) (hwf₂ : Memory.wfFrom lo m₂ = true)
    (hread : ∀ x, Memory.read x m₁ = Memory.read x m₂) : m₁ = m₂ := by
  induction m₁ generalizing lo m₂ with
  | nil =>
    cases m₂ with
    | nil => rfl
    | cons cell m₂ =>
      obtain ⟨b, w⟩ := cell
      obtain ⟨-, hw, -⟩ := (Memory.wfFrom_cons lo b w m₂).mp hwf₂
      exact absurd (Memory.le_of_read_head_eq (lo := b + 1) hw (m' := []) rfl (hread b).symm) (by omega)
  | cons cell m₁ ih =>
    obtain ⟨a, v⟩ := cell
    obtain ⟨-, hv, htail₁⟩ := (Memory.wfFrom_cons lo a v m₁).mp hwf₁
    cases m₂ with
    | nil => exact absurd (Memory.le_of_read_head_eq (lo := a + 1) hv (m' := []) rfl (hread a)) (by omega)
    | cons cell m₂ =>
      obtain ⟨b, w⟩ := cell
      obtain ⟨-, hw, htail₂⟩ := (Memory.wfFrom_cons lo b w m₂).mp hwf₂
      have hba : b ≤ a := Memory.le_of_read_head_eq hv ((Memory.wfFrom_cons b b w m₂).mpr ⟨le_refl b, hw, htail₂⟩) (hread a)
      have hab : a ≤ b := Memory.le_of_read_head_eq hw ((Memory.wfFrom_cons a a v m₁).mpr ⟨le_refl a, hv, htail₁⟩) (hread b).symm
      obtain rfl := Nat.le_antisymm hab hba
      have hvw : v = w := by simpa [Memory.read] using hread a
      have htails : ∀ x, Memory.read x m₁ = Memory.read x m₂ := fun x => by
        rw [Memory.read_tail htail₁, Memory.read_tail htail₂, hread x]
      rw [hvw, ih htail₁ htail₂ htails]

/-- Settles O6: both are canonical from address 0. -/
theorem canonicalMemoryIsUnique : Obligations.CanonicalMemoryIsUnique :=
  fun _ _ => Memory.eq_of_read_eq

/-! ### The I/O window -/

/-- Settles O13: the sum stays below 2^16, so nothing wraps. -/
theorem ioWindowAddress : Obligations.IoWindowAddress := by
  intro offset
  have hoffset := offset.isLt
  have haddr : (ioAddress offset).toNat = 0xFF00 + offset.toNat := by
    rw [ioAddress, BitVec.toNat_add, BitVec.toNat_setWidth]
    simp only [BitVec.toNat_ofNat]
    omega
  exact ⟨haddr, by omega⟩

/-! ### The flags byte -/

/-- A mask that is OR-ed in only if its flag is set. -/
theorem getLsbD_mask (b : Bool) (mask : Byte) (k : Nat) : (if b then mask else 0x00#8).getLsbD k = (b && mask.getLsbD k) := by
  cases b <;> simp

/-- A mask of one bit. -/
theorem getLsbD_twoPow_byte {j : Nat} (hj : j < 8) (k : Nat) : (BitVec.twoPow 8 j).getLsbD k = (k == j) := by
  rw [BitVec.getLsbD_twoPow, decide_eq_true hj, Bool.true_and, Bool.eq_iff_iff, decide_eq_true_iff, beq_iff_eq]
  exact eq_comm

/-- Settles O15: each mask is a power of two, and that of C is two of them. -/
theorem flagsByteMasks : Obligations.FlagsByteMasks := by
  intro fl k
  have hz : (0x80#8).getLsbD k = (k == 7) := getLsbD_twoPow_byte (j := 7) (by decide) k
  have hn : (0x40#8).getLsbD k = (k == 6) := getLsbD_twoPow_byte (j := 6) (by decide) k
  have hh : (0x20#8).getLsbD k = (k == 5) := getLsbD_twoPow_byte (j := 5) (by decide) k
  have hc : (0x09#8).getLsbD k = (k == 3 || k == 0) := by
    rw [show 0x09#8 = BitVec.twoPow 8 3 ||| BitVec.twoPow 8 0 from rfl, BitVec.getLsbD_or, getLsbD_twoPow_byte (by decide),
      getLsbD_twoPow_byte (by decide)]
  simp only [flagsByte, BitVec.getLsbD_or, getLsbD_mask, hz, hn, hh, hc, Bool.and_comm]

/-! ### LDHLSP_FLAGS -/

/-- Bit 4 of an integer is bit 4 of the integer wrapped to 16 bits. -/
theorem getLsbD_four_wrap16 (v : Int) : (wrap16 v).getLsbD 4 = intBit v 4 := by
  rw [intBit_four, wrap16, ← BitVec.testBit_toNat, Nat.testBit_eq_decide_div_mod_eq, BitVec.toNat_ofInt, decide_eq_decide]
  omega

theorem getLsbD_loByte {k : Nat} (hk : k < 8) (v : Word) : (loByte v).getLsbD k = v.getLsbD k := by
  simp [loByte, hk]

/-- Where the parameters list no exception, the flags are the default's. -/
theorem ldhlspFlags_of_nil {p : Params} (hnil : p.ldhlspFlags = []) (sp : Word) (n : Byte) :
    ldhlspFlags p sp n = ldhlspDefault sp n := by
  rw [ldhlspFlags, hnil, ldhlspLookup]

/-- Settles O57: the default reads bit 3 of SP's low byte and bit 4 of the exact sum; SP plus a negative displacement is below 2^16. -/
theorem defaultFlagsOfLoadHlFromSp : Obligations.DefaultFlagsOfLoadHlFromSp := by
  intro p sp n hnil
  rw [ldhlspFlags_of_nil hnil]
  refine ⟨Prod.ext ?half ?carry, fun hneg => ?noCarry⟩
  case half =>
    rw [getLsbD_four_wrap16, ← getLsbD_loByte (by decide)]
    rfl
  case carry => rfl
  case noCarry =>
    have hsp := sp.isLt
    refine decide_eq_false ?_
    unfold spPlus
    omega

/-- The exception that gives a function's value at one input. -/
def flagsEntry (g : Word → Byte → Bool × Bool) (x : Word × Byte) : LdhlspEntry := ⟨x.1, x.2, (g x.1 x.2).1, (g x.1 x.2).2⟩

/-- A list of exceptions taken from `g` gives the value of `g` at each input it names. -/
theorem ldhlspLookup_map_flagsEntry (g : Word → Byte → Bool × Bool) {sp : Word} {n : Byte} {xs : List (Word × Byte)}
    (hmem : (sp, n) ∈ xs) : ldhlspLookup sp n (xs.map (flagsEntry g)) = g sp n := by
  induction xs with
  | nil => exact absurd hmem List.not_mem_nil
  | cons x xs ih =>
    obtain ⟨sp', n'⟩ := x
    simp only [List.map_cons, ldhlspLookup, flagsEntry]
    split
    · next heq => rw [heq.1, heq.2]
    · next hne =>
      refine ih ((List.mem_cons.mp hmem).resolve_left fun heq => ?_)
      cases heq
      exact hne ⟨rfl, rfl⟩

/-- The default parameters, but with LDHLSP_FLAGS listing the value of `g` at each input of `xs`. -/
def paramsOfFlags (g : Word → Byte → Bool × Bool) (xs : List (Word × Byte)) : Params :=
  { Params.default with ldhlspFlags := xs.map (flagsEntry g) }

/-- Settles O58: there are finitely many inputs, and a list of all of them names every value of the function. -/
theorem everyFlagsFunctionIsAnInstance : Obligations.EveryFlagsFunctionIsAnInstance := by
  intro g
  obtain ⟨xs, hxs⟩ : ∃ xs : List (Word × Byte), ∀ x, x ∈ xs :=
    ⟨Finset.univ.toList, fun x => Finset.mem_toList.mpr (Finset.mem_univ x)⟩
  exact ⟨paramsOfFlags g xs, rfl, fun sp n => ldhlspLookup_map_flagsEntry g (hxs (sp, n))⟩

end Sys2Proof.Machine
end

section
/-! PROOF. The fetch (40_step.md R201 to R204, 60_exceptions.md R603): it answers an instruction exactly when the instruction's bytes stand
at PC, and otherwise faults at the first byte that does not exist. -/

namespace Sys2Proof.Machine

open Sys2Proof.Claims

/-! ### The fetch answers what stands at PC -/

/-- A list of bytes stands at PC from its byte `k` on, each at an address that exists. -/
def StandsFrom (k : Nat) (bs : List Byte) (s : State) : Prop :=
  ∀ j v, bs[j]? = some v → instrByteAddr s (k + j) < s.params.memSize ∧ s.peek (instrByteAddr s (k + j)) = v

theorem bytesAtPc_iff {i : Instr} {s : State} : BytesAtPc i s ↔ StandsFrom 0 (encode i) s := by
  simp only [BytesAtPc, StandsFrom, Nat.zero_add]

@[simp] theorem standsFrom_nil (k : Nat) (s : State) : StandsFrom k [] s := by simp [StandsFrom]

@[simp] theorem standsFrom_cons {k : Nat} {v : Byte} {bs : List Byte} {s : State} :
    StandsFrom k (v :: bs) s ↔
      (instrByteAddr s k < s.params.memSize ∧ s.peek (instrByteAddr s k) = v) ∧ StandsFrom (k + 1) bs s := by
  constructor
  case mp => exact fun h => ⟨h 0 v rfl, fun j w hw => by simpa [Nat.add_assoc, Nat.add_comm 1] using h (j + 1) w hw⟩
  case mpr =>
    rintro ⟨hv, hbs⟩ j w hw
    cases j with
    | zero =>
      cases hw
      exact hv
    | succ j => simpa [Nat.add_assoc, Nat.add_comm 1] using hbs j w hw

/-- The operand fetch answers an instruction exactly when its row takes it from the bytes that stand after the opcode. -/
theorem fetchOperands_eq_next {r : Row} {i : Instr} {s : State} :
    fetchOperands r.form s = .next i ↔ ∃ bs, takeOperands r bs = .ok (i, []) ∧ StandsFrom 1 bs s := by
  obtain ⟨op, cost, form⟩ := r
  cases form with
  | f1 j =>
    constructor
    · intro hfetch
      cases hfetch
      exact ⟨[], rfl, standsFrom_nil 1 s⟩
    · rintro ⟨bs, htake, -⟩
      cases htake
      rfl
  | f2 make =>
    change andThen (memRead (instrByteAddr s 1) s) (fun n => .next (make n)) = .next i ↔ _
    simp only [andThen_eq_next, memRead_eq_next]
    constructor
    · rintro ⟨n, hn, hmake⟩
      cases hmake
      exact ⟨[n], rfl, standsFrom_cons.mpr ⟨hn, standsFrom_nil 2 s⟩⟩
    · rintro ⟨bs, htake, hbs⟩
      match bs, htake with
      | [n], rfl => exact ⟨n, (standsFrom_cons.mp hbs).1, rfl⟩
  | f3 make =>
    change andThen (twoByteAddress (instrByteAddr s 1) s) (fun nn => .next (make nn)) = .next i ↔ _
    have hnext : addrPlus s.params (instrByteAddr s 1) 1 = instrByteAddr s 2 := addrPlus_addrPlus _ _
    simp only [andThen_eq_next, twoByteAddress_eq_next, hnext]
    constructor
    · rintro ⟨_, ⟨hlo, hhi, rfl⟩, hmake⟩
      cases hmake
      exact ⟨[_, _], rfl, by simp [hlo, hhi]⟩
    · rintro ⟨bs, htake, hbs⟩
      match bs, htake with
      | [lo, hi], rfl =>
        obtain ⟨⟨hlo, rfl⟩, ⟨hhi, rfl⟩, -⟩ : _ ∧ _ ∧ StandsFrom 3 [] s := by simpa only [standsFrom_cons] using hbs
        exact ⟨_, ⟨hlo, hhi, rfl⟩, rfl⟩

theorem fetchDecoded_eq_next {op : Byte} {i : Instr} {s : State} :
    fetchDecoded op s = .next i ↔ ∃ r, rowOf op = some r ∧ fetchOperands r.form s = .next i := by
  cases hrow : rowOf op <;> simp [fetchDecoded, hrow, raiseUnimplementedOpcode]

theorem decode_cons_eq_ok {op : Byte} {bs rest : List Byte} {i : Instr} :
    decode (op :: bs) = .ok (i, rest) ↔ ∃ r, rowOf op = some r ∧ takeOperands r bs = .ok (i, rest) := by
  cases hrow : rowOf op <;> simp [decode, hrow]

/-- The fetch answers an instruction exactly when the instruction's bytes stand at PC: it is the decoder on the bytes there. -/
theorem fetchInstr_eq_next {i : Instr} {s : State} : fetchInstr s = .next i ↔ BytesAtPc i s := by
  have hdecode : fetchInstr s = .next i ↔ ∃ bs, decode bs = .ok (i, []) ∧ StandsFrom 0 bs s := by
    simp only [fetchInstr, andThen_eq_next, memRead_eq_next, fetchDecoded_eq_next, fetchOperands_eq_next]
    constructor
    · rintro ⟨op, hop, r, hrow, bs, htake, hbs⟩
      exact ⟨op :: bs, decode_cons_eq_ok.mpr ⟨r, hrow, htake⟩, standsFrom_cons.mpr ⟨hop, hbs⟩⟩
    · rintro ⟨bs, hdec, hbs⟩
      match bs, hdec with
      | op :: bs, hdec =>
        obtain ⟨r, hrow, htake⟩ := decode_cons_eq_ok.mp hdec
        obtain ⟨hop, hbs⟩ := standsFrom_cons.mp hbs
        exact ⟨op, hop, r, hrow, bs, htake, hbs⟩
  rw [hdecode, bytesAtPc_iff]
  constructor
  · rintro ⟨bs, hdec, hbs⟩
    rwa [← List.append_nil (encode i), ← eq_encode_append_of_decode hdec]
  · exact fun hbytes => ⟨encode i, decode_encode i, hbytes⟩

/-- A step runs the instruction whose bytes stand at PC. -/
theorem step_of_bytesAtPc {i : Instr} {s : State} (hbytes : BytesAtPc i s) : step s = exec i s := by
  rw [step, fetchInstr_eq_next.mpr hbytes, andThen_next]

/-- A committed step is the meaning of an instruction whose bytes stand at PC. -/
theorem exists_exec_of_step {s t : State} (hstep : step s = .next t) : ∃ i, BytesAtPc i s ∧ exec i s = .next t := by
  obtain ⟨i, hfetch, hexec⟩ := andThen_eq_next.mp hstep
  exact ⟨i, fetchInstr_eq_next.mp hfetch, hexec⟩

/-- Settles O22: what decodes with nothing left is an encoding. -/
theorem stepRunsWhatDecodes : Obligations.StepRunsWhatDecodes := by
  intro s bs i hdec hbs
  rw [eq_encode_append_of_decode hdec, List.append_nil] at hbs
  exact step_of_bytesAtPc hbs

/-- Settles O23: the fetch of a committed step answered an instruction. -/
theorem committedStepFetchedAnInstruction : Obligations.CommittedStepFetchedAnInstruction :=
  fun _ _ => exists_exec_of_step

/-! ### A program word placed at PC -/

/-- The three addresses of an instruction's bytes are different. -/
theorem instrByteAddr_ne (s : State) : instrByteAddr s 0 ≠ instrByteAddr s 1 ∧ instrByteAddr s 0 ≠ instrByteAddr s 2 ∧
    instrByteAddr s 1 ≠ instrByteAddr s 2 :=
  ⟨(addrPlus_one_ne s.params _ s.pc.isLt).symm, (addrPlus_two_ne s.params _ s.pc.isLt).symm, addrPlus_one_ne_two s.params _⟩

/-- Three bytes placed at PC stand there. -/
theorem standsFrom_placeBytes_three {s : State} (hwf : s.mem.wf = true) (x y z : Byte)
    (hall : ∀ k, k < 3 → instrByteAddr s k < s.params.memSize) : StandsFrom 0 [x, y, z] (placeBytes 0 [x, y, z] s) := by
  obtain ⟨h01, h02, h12⟩ := instrByteAddr_ne s
  have hwf₀ := Memory.wf_write (instrByteAddr s 0) x hwf
  have hwf₁ := Memory.wf_write (instrByteAddr s 1) y hwf₀
  rw [placeBytes_three s x y z hall]
  simp only [standsFrom_cons, standsFrom_nil, and_true, Nat.zero_add, Nat.reduceAdd, instrByteAddr_setMem, State.setMem_params,
    State.peek_setMem]
  refine ⟨⟨hall 0 (by decide), ?_⟩, ⟨hall 1 (by decide), ?_⟩, hall 2 (by decide), ?_⟩
  · rw [Memory.read_write_other h02, Memory.read_write_other h01, Memory.read_write_same x hwf]
  · rw [Memory.read_write_other h12, Memory.read_write_same y hwf₀]
  · rw [Memory.read_write_same z hwf₁]

theorem standsFrom_of_append {k : Nat} {bs cs : List Byte} {s : State} (h : StandsFrom k (bs ++ cs) s) : StandsFrom k bs s :=
  fun j v hv => h j v (by rwa [List.getElem?_append_left (List.getElem?_eq_some_iff.mp hv).1])

theorem exists_decode_of_decodeTableWord {nbits w : Nat} {i : Instr} (hword : decodeTableWord nbits w = some i) :
    ∃ rest, decode (tableBytes nbits w) = .ok (i, rest) := by
  unfold decodeTableWord at hword
  split at hword
  · next j rest hdec =>
    cases hword
    exact ⟨rest, hdec⟩
  · cases hword

/-- Settles O43: the placed bytes stand at PC, and the instruction's are the first of them. -/
theorem placedWordRunsNext : Obligations.PlacedWordRunsNext := by
  intro s nbits w i hwf hall hword
  obtain ⟨rest, hdec⟩ := exists_decode_of_decodeTableWord hword
  have hplaced : StandsFrom 0 (tableBytes nbits w) (s.withFetchWord nbits w) := standsFrom_placeBytes_three hwf _ _ _ hall
  rw [eq_encode_append_of_decode hdec] at hplaced
  exact step_of_bytesAtPc (bytesAtPc_iff.mpr (standsFrom_of_append hplaced))

/-- Settles O44: after the store PC is at the stored byte, which is the whole encoding of the instruction. -/
theorem storedOpcodeIsFetchedNext : Obligations.StoredOpcodeIsFetchedNext := by
  intro s i hwf hencode hlt hpc
  refine ⟨_, storeByte_eq_next.mpr ⟨hlt, rfl⟩, step_of_bytesAtPc (bytesAtPc_iff.mpr ?_)⟩
  rw [hencode, standsFrom_cons, State.instrByteAddr_zero, State.advance_pc, State.setMem_pc, ← hpc]
  exact ⟨⟨hlt, State.setMem_peek_same hwf _ s.a⟩, standsFrom_nil 1 _⟩

/-! ### Where the fetch faults -/

theorem fetchInstr_of_rowOf {r : Row} {s : State} (hpc : s.pc.toNat < s.params.memSize) (hrow : rowOf (s.peek s.pc.toNat) = some r) :
    fetchInstr s = fetchOperands r.form s := by
  rw [fetchInstr, memRead_of_lt hpc, andThen_next, fetchDecoded, hrow]

theorem fetchOperands_of_ge_first {form : Form} {s : State} (hlen : 2 ≤ form.length) (hge : s.params.memSize ≤ instrByteAddr s 1) :
    fetchOperands form s = .fault (.outOfRangeAddress (instrByteAddr s 1) s.pc) := by
  cases form with
  | f1 i => exact absurd hlen (by simp [Form.length])
  | f2 make =>
    change andThen (memRead (instrByteAddr s 1) s) _ = _
    rw [memRead_of_ge hge, andThen_fault]
  | f3 make =>
    change andThen (twoByteAddress (instrByteAddr s 1) s) _ = _
    rw [twoByteAddress_of_ge hge, andThen_fault]

theorem fetchOperands_of_ge_second {form : Form} {s : State} (hlen : form.length = 3) (hlt : instrByteAddr s 1 < s.params.memSize)
    (hge : s.params.memSize ≤ instrByteAddr s 2) :
    fetchOperands form s = .fault (.outOfRangeAddress (instrByteAddr s 2) s.pc) := by
  have hnext : addrPlus s.params (instrByteAddr s 1) 1 = instrByteAddr s 2 := addrPlus_addrPlus _ _
  cases form with
  | f1 i => exact absurd hlen (by simp [Form.length])
  | f2 make => exact absurd hlen (by simp [Form.length])
  | f3 make =>
    change andThen (twoByteAddress (instrByteAddr s 1) s) _ = _
    rw [twoByteAddress_of_ge_second hlt (by rwa [hnext]), andThen_fault, hnext]

/-- Settles O25: the three reads of the fetch in order, each of the last two only if the row's form asks for it. -/
theorem fetchFaultsInOrder : Obligations.FetchFaultsInOrder := by
  refine fun s => ⟨fun hge => ?opcode, fun r hpc hrow hlen hge => ?first, fun r hpc hrow hlen hlt hge => ?second⟩
  case opcode => exact step_of_fetchInstr_fault (by rw [fetchInstr, memRead_of_ge hge, andThen_fault])
  case first => exact step_of_fetchInstr_fault (by rw [fetchInstr_of_rowOf hpc hrow, fetchOperands_of_ge_first hlen hge])
  case second => exact step_of_fetchInstr_fault (by rw [fetchInstr_of_rowOf hpc hrow, fetchOperands_of_ge_second hlen hlt hge])

end Sys2Proof.Machine
end

section
/-! PROOF. Every instruction at once: which accesses decide whether it completes (60_exceptions.md R602, R603), and what it changes
(10_state.md R53, R55; 20_memory.md; 40_step.md R205). -/

namespace Sys2Proof.Machine

open Sys2Proof.Claims

/-! ### Data accesses decide the outcome -/

/-- A result from `s` is decided by accesses at these addresses in order: it completes if all exist, and reports the first that does not. -/
def DecidedBy (addrs : List Nat) (s : State) (r : Result State) : Prop :=
  (firstOutOfRange s.params.memSize addrs = none → ∃ t, r = .next t) ∧
    ∀ a, firstOutOfRange s.params.memSize addrs = some a → r = .fault (.outOfRangeAddress a s.pc)

theorem firstOutOfRange_cons (size a : Nat) (addrs : List Nat) :
    firstOutOfRange size (a :: addrs) = if size ≤ a then some a else firstOutOfRange size addrs := by
  by_cases hle : size ≤ a <;> simp [firstOutOfRange, hle]

theorem decidedBy_nil {s : State} {r : Result State} : DecidedBy [] s r ↔ ∃ t, r = .next t := by
  simp [DecidedBy, firstOutOfRange]

theorem decidedBy_next (s t : State) : DecidedBy [] s (.next t) := decidedBy_nil.mpr ⟨t, rfl⟩

/-- The first access decides if its address does not exist, and else those after it. -/
theorem decidedBy_cons {a : Nat} {addrs : List Nat} {s : State} {r : Result State} :
    DecidedBy (a :: addrs) s r ↔
      (s.params.memSize ≤ a → r = .fault (.outOfRangeAddress a s.pc)) ∧ (a < s.params.memSize → DecidedBy addrs s r) := by
  rw [DecidedBy, firstOutOfRange_cons]
  split
  · next hge => simp [hge, Nat.not_lt.mpr hge]
  · next hlt => simp [hlt, Nat.lt_of_not_le hlt, DecidedBy]

/-- A result after a read that answers at every address that exists. -/
theorem decidedBy_memRead {a : Nat} {s : State} {k : Byte → Result State} (hk : ∀ v, DecidedBy [] s (k v)) :
    DecidedBy [a] s (andThen (memRead a s) k) := by
  refine decidedBy_cons.mpr ⟨fun hge => ?_, fun hlt => ?_⟩
  · rw [memRead_of_ge hge, andThen_fault]
  · rw [memRead_of_lt hlt, andThen_next]
    exact hk _

/-- A result after a write from a state with the PC and the memory size of `s`. -/
theorem decidedBy_memWrite {a : Nat} {v : Byte} {addrs : List Nat} {s u : State} {k : State → Result State}
    (hparams : u.params = s.params) (hpc : u.pc = s.pc) (hk : ∀ m, DecidedBy addrs s (k (u.setMem m))) :
    DecidedBy (a :: addrs) s (andThen (memWrite a v u) k) := by
  refine decidedBy_cons.mpr ⟨fun hge => ?_, fun hlt => ?_⟩
  · rw [memWrite_of_ge (hparams ▸ hge), andThen_fault, hpc]
  · rw [memWrite_of_lt (hparams ▸ hlt), andThen_next]
    exact hk _

theorem decidedBy_loadByte (r : Reg) (addr len cost : Nat) (s : State) : DecidedBy [addr] s (loadByte r addr len cost s) :=
  decidedBy_memRead fun _ => decidedBy_next s _

theorem decidedBy_storeByte (addr : Nat) (v : Byte) (len cost : Nat) (s : State) :
    DecidedBy [addr] s (storeByte addr v len cost s) :=
  decidedBy_memWrite rfl rfl fun _ => decidedBy_next s _

theorem decidedBy_pushPair (hi lo : Byte) (len cost : Nat) (s : State) :
    DecidedBy [(s.sp - 1#16).toNat, (s.sp - 2#16).toNat] s (pushPair hi lo len cost s) := by
  rw [← sub_one_sub_one]
  exact decidedBy_memWrite rfl rfl fun _ => decidedBy_memWrite rfl rfl fun _ => decidedBy_next s _

/-- Every instruction's outcome is decided by its data accesses. -/
theorem exec_decidedBy (i : Instr) (s : State) : DecidedBy (dataAddrs i s) s (exec i s) := by
  revert i
  apply Instr.byClass
  case ldRR =>
    intro dst src
    have haddrs : dataAddrs (.ldRR dst src) s = [] := by cases dst <;> cases src <;> rfl
    rw [haddrs, exec_ldRR]
    exact decidedBy_next s _
  case ldRN =>
    intro dst n
    have haddrs : dataAddrs (.ldRN dst n) s = [] := by cases dst <;> rfl
    rw [haddrs, exec_ldRN]
    exact decidedBy_next s _
  case ldRAtHL =>
    intro dst
    have haddrs : dataAddrs (.ldRAtHL dst) s = [(hlAddress s).toNat] := by cases dst <;> rfl
    rw [haddrs, exec_ldRAtHL]
    exact decidedBy_loadByte dst.reg _ 1 8 s
  case ldAtHLR =>
    intro src
    have haddrs : dataAddrs (.ldAtHLR src) s = [(hlAddress s).toNat] := by cases src <;> rfl
    rw [haddrs, exec_ldAtHLR]
    exact decidedBy_storeByte _ _ 1 8 s
  case ldAtHLN => exact fun n => decidedBy_storeByte _ n 2 12 s
  case ldAtBCA | ldAtDEA | ldIoCA => exact decidedBy_storeByte _ s.a 1 8 s
  case ldAtNNA => exact fun nn => decidedBy_storeByte _ s.a 3 16 s
  case ldIoNA => exact fun n => decidedBy_storeByte _ s.a 2 12 s
  case ldAAtBC | ldAAtDE | ldAIoC => exact decidedBy_loadByte .a _ 1 8 s
  case ldAAtNN => exact fun nn => decidedBy_loadByte .a _ 3 16 s
  case ldAIoN => exact fun n => decidedBy_loadByte .a _ 2 12 s
  case ldAtHLIncA | ldAtHLDecA => exact decidedBy_memWrite rfl rfl fun _ => decidedBy_next s _
  case ldAAtHLInc | ldAAtHLDec => exact decidedBy_memRead fun _ => decidedBy_next s _
  case ldBCNN | ldDENN | ldHLNN | ldSPNN => exact fun nn => decidedBy_next s _
  case ldSPHL => exact decidedBy_next s _
  case ldHLSPN => exact fun n => decidedBy_next s _
  case ldAtNNSP =>
    exact fun nn => decidedBy_memWrite rfl rfl fun _ => decidedBy_memWrite rfl rfl fun _ => decidedBy_next s _
  case pushBC => exact decidedBy_pushPair s.b s.c 1 16 s
  case pushDE => exact decidedBy_pushPair s.d s.e 1 16 s
  case pushHL => exact decidedBy_pushPair s.h s.l 1 16 s
  case pushAF => exact decidedBy_pushPair s.a (flagsByte s.flags) 1 16 s

/-- Settles O32: the instruction's data accesses decide its outcome. -/
theorem dataAccessesDecideTheOutcome : Obligations.DataAccessesDecideTheOutcome := by
  intro i s
  obtain ⟨hnone, hsome⟩ := exec_decidedBy i s
  split
  · next h => exact hnone h
  · next a h => exact hsome a h

/-- An instruction completes, or reports one of its data addresses, which does not exist. -/
theorem exec_cases (i : Instr) (s : State) :
    (∃ t, exec i s = .next t) ∨
      ∃ a ∈ dataAddrs i s, s.params.memSize ≤ a ∧ exec i s = .fault (.outOfRangeAddress a s.pc) := by
  obtain ⟨hnone, hsome⟩ := exec_decidedBy i s
  cases hfirst : firstOutOfRange s.params.memSize (dataAddrs i s) with
  | none => exact .inl (hnone hfirst)
  | some a =>
    have hge : decide (s.params.memSize ≤ a) = true := List.find?_some (p := fun a => decide (s.params.memSize ≤ a)) hfirst
    exact .inr ⟨a, List.mem_of_find?_eq_some hfirst, of_decide_eq_true hge, hsome a hfirst⟩

/-! ### Memory after an instruction -/

/-- Writes made in order leave in a canonical memory what the last write to each cell stored. -/
theorem read_writeAll_eq_peekAfter {ws : List (Nat × Byte)} {m : Memory} {before : Nat → Byte} (hwf : m.wf = true)
    (hbefore : ∀ y, m.read y = before y) (x : Nat) : (Memory.writeAll ws m).read x = peekAfter before ws x := by
  induction ws generalizing m before with
  | nil => exact hbefore x
  | cons w ws ih =>
    obtain ⟨a, v⟩ := w
    refine ih (Memory.wf_write a v hwf) fun y => ?_
    split
    · next heq => rw [heq, Memory.read_write_same v hwf]
    · next hne => rw [Memory.read_write_other hne, hbefore]

theorem ExecNext.peek {i : Instr} {s t : State} (hnext : ExecNext i s t) (x : Nat) :
    t.peek x = (Memory.writeAll (storesOf i s) s.mem).read x := by
  rw [State.peek, hnext.mem]

theorem ExecNext.peek_other {i : Instr} {s t : State} (hnext : ExecNext i s t) {x : Nat} (hx : x ∉ storeAddrs i s) :
    t.peek x = s.peek x := by
  rw [hnext.peek]
  exact Memory.read_writeAll_other hx s.mem

/-- Settles O33: memory is the instruction's writes made in order. -/
theorem memoryAfterAnInstruction : Obligations.MemoryAfterAnInstruction := by
  intro i s t hexec
  have hnext := exec_next i s t hexec
  refine ⟨fun x hx => hnext.peek_other hx, fun hwf x => ?_⟩
  rw [hnext.peek, read_writeAll_eq_peekAfter (before := s.peek) hwf fun _ => rfl]

/-! ### What an instruction changes -/

/-- No instruction names F as a destination (10_state.md R53). -/
theorem f_not_mem_destRegs (i : Instr) : Reg.f ∉ destRegs i := by
  cases i <;> simp [destRegs]

/-- Settles O34: the footprint of what any instruction answers, and F is in no footprint. -/
theorem onlyTheNamedRegistersChange : Obligations.OnlyTheNamedRegistersChange := by
  intro i s t hexec
  have hnext := exec_next i s t hexec
  exact ⟨hnext.get, hnext.sp, hnext.flags, hnext.get .f (f_not_mem_destRegs i), hnext.params⟩

/-- Settles O28: PC's part of what any instruction answers, and the lengths by opcode. -/
theorem pcAdvancesByTheLength : Obligations.PcAdvancesByTheLength := by
  intro i s t hexec
  constructor
  · rw [(exec_next i s t hexec).pc]
    simp [BitVec.toNat_add]
  · rw [i.length_eq_opcodeLength]
    exact opcodeLength_mem i.opcode

/-! ### The step -/

theorem step_params {s t : State} (hstep : step s = .next t) : t.params = s.params := by
  obtain ⟨i, -, hexec⟩ := exists_exec_of_step hstep
  exact (exec_next i s t hexec).params

theorem step_cycles_le {s t : State} (hstep : step s = .next t) : s.cycles ≤ t.cycles := by
  obtain ⟨i, -, hexec⟩ := exists_exec_of_step hstep
  rw [(exec_next i s t hexec).cycles]
  exact Nat.le_add_right s.cycles i.cost

/-- Settles O31: no instruction changes the parameters, and a step is an instruction. -/
theorem parametersNeverChange : Obligations.ParametersNeverChange :=
  ⟨fun _ _ => step_params, fun p a => ⟨rfl, State.construct_peek p a⟩⟩

/-- A committed instruction made its writes below MEM_SIZE, and each keeps the canonical form. -/
theorem ExecNext.inv {i : Instr} {s t : State} (hnext : ExecNext i s t) (hinv : s.Inv) : t.Inv := by
  obtain ⟨hparams, hwf, hbelow⟩ := hinv
  have hlt : ∀ a ∈ storeAddrs i s, a < s.params.memSize := fun a ha => hnext.addrs a (List.mem_append_right _ ha)
  rw [State.Inv, hnext.params, hnext.mem]
  exact ⟨hparams, Memory.wf_writeAll _ hwf, Memory.below_writeAll hlt hbelow⟩

theorem step_inv {s t : State} (hinv : s.Inv) (hstep : step s = .next t) : t.Inv := by
  obtain ⟨i, -, hexec⟩ := exists_exec_of_step hstep
  exact (exec_next i s t hexec).inv hinv

/-- Settles O38: a committed step is an instruction, which keeps the invariant. -/
theorem stepKeepsTheInvariant : Obligations.StepKeepsTheInvariant :=
  fun _ _ => step_inv

/-- A step commits, or stops on an opcode byte without an entry, or at an address that does not exist: one that the fetch reads, or a data
address of the instruction that stands at PC. -/
theorem step_cases (s : State) :
    (∃ t, step s = .next t) ∨
    (rowOf (s.peek s.pc.toNat) = none ∧ step s = .fault (.unimplementedOpcode (s.peek s.pc.toNat) s.pc)) ∨
    ∃ a, s.params.memSize ≤ a ∧ step s = .fault (.outOfRangeAddress a s.pc) ∧
      (a = instrByteAddr s 0 ∨ a = instrByteAddr s 1 ∨ (instrByteAddr s 1 < s.params.memSize ∧ a = instrByteAddr s 2) ∨
        ∃ i, a ∈ dataAddrs i s) := by
  obtain ⟨hge, hfetch⟩ | ⟨-, hnone, hfetch⟩ | ⟨r, -, -, hfetch⟩ := fetchInstr_cases s
  · exact .inr (.inr ⟨_, hge, step_of_fetchInstr_fault hfetch, .inl rfl⟩)
  · exact .inr (.inl ⟨hnone, step_of_fetchInstr_fault hfetch⟩)
  obtain ⟨i, hoperands⟩ | ⟨hge, hoperands⟩ | ⟨hlt, hge, hoperands⟩ := fetchOperands_cases r.form s
  · have hstep : step s = exec i s := step_of_bytesAtPc (fetchInstr_eq_next.mp (hfetch.trans hoperands))
    rw [hstep]
    obtain hnext | ⟨a, ha, hge, hfault⟩ := exec_cases i s
    · exact .inl hnext
    · exact .inr (.inr ⟨a, hge, hfault, .inr (.inr (.inr ⟨i, ha⟩))⟩)
  · exact .inr (.inr ⟨_, hge, step_of_fetchInstr_fault (hfetch.trans hoperands), .inr (.inl rfl)⟩)
  · exact .inr (.inr ⟨_, hge, step_of_fetchInstr_fault (hfetch.trans hoperands), .inr (.inr (.inl ⟨hlt, rfl⟩))⟩)

/-- Settles O26: the cases of a step. -/
theorem onlyTwoFaultsExist : Obligations.OnlyTwoFaultsExist := by
  intro s
  obtain hnext | ⟨hnone, hstep⟩ | ⟨a, hge, hstep, -⟩ := step_cases s
  · exact .inl hnext
  · exact .inr (.inl ⟨_, hstep, rfl, hnone⟩)
  · exact .inr (.inr ⟨a, hstep, hge⟩)

/-! ### Faults in the full 16-bit space -/

/-- The bound of a word as the numeral the addresses are compared with. -/
theorem word_toNat_lt (v : Word) : v.toNat < 65536 := v.isLt

/-- Every data address is a 16-bit value, or the address after a 16-bit value. -/
theorem dataAddrs_lt_or_eq_addrPlus (i : Instr) (s : State) :
    ∀ a ∈ dataAddrs i s, a < 65536 ∨ ∃ nn : Word, a = addrPlus s.params nn.toNat 1 := by
  cases i
  case ldAtNNSP nn =>
    refine List.forall_mem_cons.mpr ⟨.inl (word_toNat_lt nn), List.forall_mem_cons.mpr ⟨.inr ⟨nn, rfl⟩, List.forall_mem_nil _⟩⟩
  all_goals simp [dataAddrs, loadsOf, storeAddrs, storesOf, word_toNat_lt, -BitVec.toNat_sub]

theorem addrPlus_of_fault {p : Params} (hfault : p.addrOverflow = .fault) (base k : Nat) : addrPlus p base k = base + k := by
  simp only [addrPlus, hfault]

/-- An address past the 16-bit space was not wrapped. -/
theorem addrOverflow_of_le_addrPlus {p : Params} {base k : Nat} (hge : 65536 ≤ addrPlus p base k) : p.addrOverflow = .fault := by
  cases hp : p.addrOverflow with
  | fault => rfl
  | wrap =>
    simp only [addrPlus, hp] at hge
    omega

/-- The address after a 16-bit value, where it is past the 16-bit space. -/
theorem addrPlus_one_eq {p : Params} (v : Word) (hge : 65536 ≤ addrPlus p v.toNat 1) :
    p.addrOverflow = .fault ∧ addrPlus p v.toNat 1 = 65536 := by
  have hfault := addrOverflow_of_le_addrPlus hge
  have hv := word_toNat_lt v
  rw [addrPlus_of_fault hfault] at hge ⊢
  exact ⟨hfault, by omega⟩

/-- The last byte of an instruction, where it is past the 16-bit space and the byte before it is not. -/
theorem instrByteAddr_two_eq {s : State} (hlt : instrByteAddr s 1 < 65536) (hge : 65536 ≤ instrByteAddr s 2) :
    s.params.addrOverflow = .fault ∧ instrByteAddr s 2 = 65536 := by
  have hfault := addrOverflow_of_le_addrPlus hge
  rw [State.instrByteAddr_succ, addrPlus_of_fault hfault] at hlt hge ⊢
  exact ⟨hfault, by omega⟩

/-- Settles O27: a missing address is of a byte of the instruction or a data address, and each of these past the space is 0x10000. -/
theorem outOfRangeInTheFullSpace : Obligations.OutOfRangeInTheFullSpace := by
  intro s a p hsize hstep
  obtain ⟨t, hnext⟩ | ⟨-, hfault⟩ | ⟨b, hge, hfault, hb⟩ := step_cases s
  · cases hnext.symm.trans hstep
  · cases hfault.symm.trans hstep
  · cases hfault.symm.trans hstep
    rw [hsize] at hge hb
    obtain rfl | rfl | ⟨hlt, rfl⟩ | ⟨i, hmem⟩ := hb
    · exact absurd hge (Nat.not_le_of_lt (word_toNat_lt s.pc))
    · exact addrPlus_one_eq s.pc hge
    · exact instrByteAddr_two_eq hlt hge
    · obtain hlt | ⟨nn, rfl⟩ := dataAddrs_lt_or_eq_addrPlus i s a hmem
      · exact absurd hge (Nat.not_le_of_lt hlt)
      · exact addrPlus_one_eq nn hge

end Sys2Proof.Machine
end

section
/-! PROOF. What no instruction reads: F (10_state.md R50), the cycle counter (60_exceptions.md R610), and the flags but for PUSH AF
(10_state.md R55). One argument for all three: a change of the state that every operation commutes with passes through every meaning. -/

namespace Sys2Proof

/-- No instruction names F as an 8-bit operand (41_load8.md R300). -/
theorem OpReg.reg_ne_f (r : OpReg) : r.reg ≠ .f := by
  cases r <;> decide

end Sys2Proof

namespace Sys2Proof.Machine

/-- A change of the state that the operations of the meanings neither see nor undo, those on the flags left out. -/
structure Unseen (u : State → State) : Prop where
  pc : ∀ s, (u s).pc = s.pc
  sp : ∀ s, (u s).sp = s.sp
  mem : ∀ s, (u s).mem = s.mem
  params : ∀ s, (u s).params = s.params
  get : ∀ s r, r ≠ .f → (u s).get r = s.get r
  set : ∀ s r v, r ≠ .f → u (s.set r v) = (u s).set r v
  setSp : ∀ s v, u (s.setSp v) = (u s).setSp v
  setMem : ∀ s m, u (s.setMem m) = (u s).setMem m
  advance : ∀ s len cost, u (s.advance len cost) = (u s).advance len cost

/-- The change leaves the flags alone as well. -/
structure KeepsFlags (u : State → State) : Prop where
  flags : ∀ s, (u s).flags = s.flags
  setFlags : ∀ s fl, u (s.setFlags fl) = (u s).setFlags fl

section FlagHelpers
variable {u : State → State} (hkeeps : KeepsFlags u) (s : State)
include hkeeps

theorem KeepsFlags.clearZeroFlag : u (clearZeroFlag s) = clearZeroFlag (u s) := by
  rw [Machine.clearZeroFlag, hkeeps.setFlags, Machine.clearZeroFlag, hkeeps.flags]

theorem KeepsFlags.clearSubtractFlag : u (clearSubtractFlag s) = clearSubtractFlag (u s) := by
  rw [Machine.clearSubtractFlag, hkeeps.setFlags, Machine.clearSubtractFlag, hkeeps.flags]

theorem KeepsFlags.assignHC (hc : Bool × Bool) : u (assignHC hc s) = assignHC hc (u s) := by
  rw [Machine.assignHC, hkeeps.setFlags, Machine.assignHC, hkeeps.flags]

end FlagHelpers

/-- The answer changed. -/
def mapNext (u : State → State) (r : Result State) : Result State := andThen r fun t => .next (u t)

@[simp] theorem mapNext_next (u : State → State) (t : State) : mapNext u (.next t) = .next (u t) := rfl
@[simp] theorem mapNext_fault (u : State → State) (x : Fault) : mapNext u (.fault x) = .fault x := rfl

theorem mapNext_andThen {α : Type} (u : State → State) (r : Result α) (k : α → Result State) :
    mapNext u (andThen r k) = andThen r fun v => mapNext u (k v) :=
  andThen_assoc r k _

section Operations
variable {u : State → State} (hu : Unseen u) (s : State)
include hu

theorem Unseen.memRead (addr : Nat) : memRead addr (u s) = memRead addr s := by
  simp only [Machine.memRead, raiseOutOfRange, hu.params, hu.mem, hu.pc]

/-- A write after the change is the change after the write. -/
theorem Unseen.memWrite (addr : Nat) (v : Byte) : memWrite addr v (u s) = mapNext u (memWrite addr v s) := by
  simp only [Machine.memWrite, hu.params, hu.mem, raiseOutOfRange, hu.pc]
  split <;> simp [hu.setMem]

theorem Unseen.setPair {hi lo : Reg} (hhi : hi ≠ .f) (hlo : lo ≠ .f) (v : Word) :
    u (s.setPair hi lo v) = (u s).setPair hi lo v := by
  simp only [State.setPair, hu.set _ _ _ hhi, hu.set _ _ _ hlo]

theorem Unseen.getPair {hi lo : Reg} (hhi : hi ≠ .f) (hlo : lo ≠ .f) : (u s).getPair hi lo = s.getPair hi lo := by
  simp only [State.getPair, hu.get _ _ hhi, hu.get _ _ hlo]

theorem Unseen.hlAddress : hlAddress (u s) = hlAddress s := hu.getPair s (by decide) (by decide)
theorem Unseen.bcAddress : bcAddress (u s) = bcAddress s := hu.getPair s (by decide) (by decide)
theorem Unseen.deAddress : deAddress (u s) = deAddress s := hu.getPair s (by decide) (by decide)

theorem Unseen.incrementHl : u (incrementHl s) = incrementHl (u s) := by
  rw [Machine.incrementHl, hu.setPair s (by decide) (by decide), Machine.incrementHl, hu.hlAddress]

theorem Unseen.decrementHl : u (decrementHl s) = decrementHl (u s) := by
  rw [Machine.decrementHl, hu.setPair s (by decide) (by decide), Machine.decrementHl, hu.hlAddress]

theorem Unseen.loadByte {r : Reg} (hr : r ≠ .f) (addr len cost : Nat) :
    loadByte r addr len cost (u s) = mapNext u (loadByte r addr len cost s) := by
  simp only [Machine.loadByte, hu.memRead, mapNext_andThen, commit_eq, mapNext_next, hu.advance, hu.set _ _ _ hr]

theorem Unseen.andThen_memWrite {k : State → Result State} (hk : ∀ t, k (u t) = mapNext u (k t)) (addr : Nat) (v : Byte) :
    andThen (Machine.memWrite addr v (u s)) k = mapNext u (andThen (Machine.memWrite addr v s) k) := by
  rw [hu.memWrite, mapNext, andThen_assoc, mapNext_andThen]
  simp only [andThen_next, hk]

theorem Unseen.commit (len cost : Nat) : commit len cost (u s) = mapNext u (commit len cost s) := by
  rw [commit_eq, commit_eq, mapNext_next, hu.advance]

theorem Unseen.storeByte (addr : Nat) (v : Byte) (len cost : Nat) :
    storeByte addr v len cost (u s) = mapNext u (storeByte addr v len cost s) :=
  hu.andThen_memWrite s (fun t => hu.commit t len cost) addr v

theorem Unseen.pushPair (hi lo : Byte) (len cost : Nat) :
    pushPair hi lo len cost (u s) = mapNext u (pushPair hi lo len cost s) := by
  simp only [Machine.pushPair, pushToStack, hu.sp, ← hu.setSp]
  refine hu.andThen_memWrite _ (fun t => ?_) _ hi
  rw [hu.sp, ← hu.setSp]
  exact hu.andThen_memWrite _ (fun t => hu.commit t len cost) _ lo

theorem Unseen.fetchInstr : fetchInstr (u s) = fetchInstr s := by
  have hoperands (form : Form) : fetchOperands form (u s) = fetchOperands form s := by
    cases form <;> simp only [fetchOperands, twoByteAddress, hu.memRead, hu.params, hu.pc]
  simp only [Machine.fetchInstr, fetchDecoded, hu.memRead, hu.pc, hoperands, raiseUnimplementedOpcode]

end Operations

/-- The change passes through every meaning, if it leaves the flags alone or the meaning does. -/
theorem Unseen.exec {u : State → State} (hu : Unseen u) (i : Instr) (s : State)
    (hflags : KeepsFlags u ∨ (i ≠ .pushAF ∧ writesFlags i = false)) : exec i (u s) = mapNext u (exec i s) := by
  have ha : (u s).a = s.a := hu.get s .a nofun
  have hb : (u s).b = s.b := hu.get s .b nofun
  have hc : (u s).c = s.c := hu.get s .c nofun
  have hd : (u s).d = s.d := hu.get s .d nofun
  have he : (u s).e = s.e := hu.get s .e nofun
  have hh : (u s).h = s.h := hu.get s .h nofun
  have hl : (u s).l = s.l := hu.get s .l nofun
  have hseta (v : Byte) : u (s.set .a v) = (u s).set .a v := hu.set s .a v nofun
  have hloada (addr len cost : Nat) : Machine.loadByte .a addr len cost (u s) = mapNext u (Machine.loadByte .a addr len cost s) :=
    hu.loadByte s (by decide) addr len cost
  revert i
  apply Instr.byClass
  case ldRR =>
    intro dst src _
    simp only [exec_ldRR, mapNext_next, hu.advance, hu.set _ _ _ dst.reg_ne_f, hu.get _ _ src.reg_ne_f]
  case ldRN =>
    intro dst n _
    simp only [exec_ldRN, mapNext_next, hu.advance, hu.set _ _ _ dst.reg_ne_f]
  case ldRAtHL =>
    intro dst _
    rw [exec_ldRAtHL, exec_ldRAtHL, hu.hlAddress, hu.loadByte s dst.reg_ne_f]
  case ldAtHLR =>
    intro src _
    rw [exec_ldAtHLR, exec_ldAtHLR, hu.hlAddress, hu.get _ _ src.reg_ne_f, hu.storeByte]
  case ldAtHLN => exact fun n _ => by simp only [Machine.exec, execLdAtHLN, hu.hlAddress, hu.storeByte]
  case ldAtBCA => exact fun _ => by simp only [Machine.exec, execLdAtBCA, hu.bcAddress, ha, hu.storeByte]
  case ldAtDEA => exact fun _ => by simp only [Machine.exec, execLdAtDEA, hu.deAddress, ha, hu.storeByte]
  case ldAtNNA => exact fun nn _ => by simp only [Machine.exec, execLdAtNNA, ha, hu.storeByte]
  case ldIoNA => exact fun n _ => by simp only [Machine.exec, execLdIoNA, ha, hu.storeByte]
  case ldIoCA => exact fun _ => by simp only [Machine.exec, execLdIoCA, ha, hc, hu.storeByte]
  case ldAAtBC => exact fun _ => by simp only [Machine.exec, execLdAAtBC, hu.bcAddress, hloada]
  case ldAAtDE => exact fun _ => by simp only [Machine.exec, execLdAAtDE, hu.deAddress, hloada]
  case ldAAtNN => exact fun nn _ => hloada nn.toNat 3 16
  case ldAIoN => exact fun n _ => hloada (ioAddress n).toNat 2 12
  case ldAIoC => exact fun _ => by simp only [Machine.exec, execLdAIoC, hc, hloada]
  case ldAtHLIncA =>
    intro _
    simp only [Machine.exec, execLdAtHLIncA, hu.hlAddress, ha]
    exact hu.andThen_memWrite s (fun t => by rw [← hu.incrementHl, hu.commit]) _ _
  case ldAtHLDecA =>
    intro _
    simp only [Machine.exec, execLdAtHLDecA, hu.hlAddress, ha]
    exact hu.andThen_memWrite s (fun t => by rw [← hu.decrementHl, hu.commit]) _ _
  case ldAAtHLInc =>
    intro _
    simp only [Machine.exec, execLdAAtHLInc, hu.hlAddress, hu.memRead, mapNext_andThen, ← hu.commit, hu.incrementHl, hseta]
  case ldAAtHLDec =>
    intro _
    simp only [Machine.exec, execLdAAtHLDec, hu.hlAddress, hu.memRead, mapNext_andThen, ← hu.commit, hu.decrementHl, hseta]
  case ldBCNN => exact fun nn _ => by simp only [Machine.exec, execLdBCNN, ← hu.commit, hu.setPair s (hi := .b) (lo := .c) nofun nofun]
  case ldDENN => exact fun nn _ => by simp only [Machine.exec, execLdDENN, ← hu.commit, hu.setPair s (hi := .d) (lo := .e) nofun nofun]
  case ldHLNN => exact fun nn _ => by simp only [Machine.exec, execLdHLNN, ← hu.commit, hu.setPair s (hi := .h) (lo := .l) nofun nofun]
  case ldSPNN => exact fun nn _ => by simp only [Machine.exec, execLdSPNN, ← hu.commit, hu.setSp]
  case ldSPHL => exact fun _ => by simp only [Machine.exec, execLdSPHL, ← hu.commit, hu.setSp, hu.hlAddress]
  case ldHLSPN =>
    intro n hflags
    obtain hkeeps | ⟨-, hwrites⟩ := hflags
    · simp only [Machine.exec, execLdHLSPN, ← hu.commit, hkeeps.assignHC, hkeeps.clearSubtractFlag, hkeeps.clearZeroFlag,
        hu.setPair s (hi := .h) (lo := .l) nofun nofun, hu.sp, hu.params]
    · exact absurd hwrites (by simp [writesFlags])
  case ldAtNNSP =>
    intro nn _
    simp only [Machine.exec, execLdAtNNSP, hu.sp, hu.params]
    exact hu.andThen_memWrite s (fun t => hu.andThen_memWrite t (fun t' => hu.commit t' 3 20) _ _) _ _
  case pushBC => exact fun _ => by simp only [Machine.exec, execPushBC, hb, hc, hu.pushPair]
  case pushDE => exact fun _ => by simp only [Machine.exec, execPushDE, hd, he, hu.pushPair]
  case pushHL => exact fun _ => by simp only [Machine.exec, execPushHL, hh, hl, hu.pushPair]
  case pushAF =>
    intro hflags
    obtain hkeeps | ⟨hne, -⟩ := hflags
    · simp only [Machine.exec, execPushAF, ha, hkeeps.flags, hu.pushPair]
    · exact absurd rfl hne

/-- A change that leaves the flags alone passes through every step. -/
theorem Unseen.step {u : State → State} (hu : Unseen u) (hkeeps : KeepsFlags u) (s : State) : step (u s) = mapNext u (step s) := by
  rw [Machine.step, hu.fetchInstr, Machine.step, mapNext_andThen]
  simp only [hu.exec _ s (.inl hkeeps)]

/-! ### The three changes -/

theorem unseen_setF (v : Byte) : Unseen fun s => s.set .f v where
  pc s := s.set_pc .f v
  sp s := s.set_sp .f v
  mem s := s.set_mem .f v
  params s := s.set_params .f v
  get s _ hr := s.set_get_other v hr
  set s r w hr := by
    cases r with
    | f => exact absurd rfl hr
    | _ => rfl
  setSp _ _ := rfl
  setMem _ _ := rfl
  advance _ _ _ := rfl

/-- Settles O35: no operation reads or writes F. -/
theorem stepIgnoresTheFCell : Obligations.StepIgnoresTheFCell :=
  fun s v => (unseen_setF v).step ⟨fun s => s.set_flags .f v, fun _ _ => rfl⟩ s

/-- The state with `k` more cycles counted. -/
def State.addCycles (k : Nat) (s : State) : State := { s with cycles := s.cycles + k }

theorem unseen_addCycles (k : Nat) : Unseen (State.addCycles k) where
  pc _ := rfl
  sp _ := rfl
  mem _ := rfl
  params _ := rfl
  get _ r _ := by cases r <;> rfl
  set _ r _ _ := by cases r <;> rfl
  setSp _ _ := rfl
  setMem _ _ := rfl
  advance s len cost := by simp only [State.addCycles, State.advance, Nat.add_right_comm]

/-- Settles O36: no operation reads the counter, and a commit only adds to it. -/
theorem stepIgnoresTheCycleCounter : Obligations.StepIgnoresTheCycleCounter :=
  fun s k => (unseen_addCycles k).step ⟨fun _ => rfl, fun _ _ => rfl⟩ s

theorem unseen_setFlags (fl : Flags) : Unseen fun s => s.setFlags fl where
  pc _ := rfl
  sp _ := rfl
  mem _ := rfl
  params _ := rfl
  get s r _ := s.setFlags_get fl r
  set _ r _ _ := by cases r <;> rfl
  setSp _ _ := rfl
  setMem _ _ := rfl
  advance _ _ _ := rfl

/-- Settles O37: no operation of these meanings reads or writes the flags. -/
theorem otherInstructionsIgnoreTheFlags : Obligations.OtherInstructionsIgnoreTheFlags :=
  fun i s fl hne hwrites => (unseen_setFlags fl).exec i s (.inr ⟨hne, hwrites⟩)

end Sys2Proof.Machine
end

section
/-! PROOF. The host's side (60_exceptions.md R605, R606; 70_reset_and_hazards.md R700, R708): calls of `step`, and runs. -/

namespace Sys2Proof.Machine

/-- Settles O39: the caller keeps the state, and the same call from it stops the same way. -/
theorem faultLeavesTheCallersState : Obligations.FaultLeavesTheCallersState := by
  intro s x hstep
  have hcall := callStep_of_step_fault hstep
  exact ⟨hcall, by rw [hcall, hcall]⟩

/-- Settles O41: both are `constructCpu`, on the memory there is and on one that lists no cell. -/
theorem resettingAgainIsConstruction : Obligations.ResettingAgainIsConstruction := by
  refine fun s => ⟨s.newCpu, s.newMachine, rfl, rfl, fun r => ?get, ⟨rfl, rfl⟩, ⟨rfl, rfl⟩, ⟨rfl, rfl⟩, ⟨rfl, rfl⟩,
    fun a => ⟨rfl, State.construct_peek s.params a⟩, ⟨rfl, rfl⟩, ⟨rfl, rfl⟩⟩
  case get => exact ⟨State.constructCpu_get s.params s.mem r, State.constructCpu_get s.params Memory.construct r⟩

/-! ### Runs -/

/-- A write that the host makes keeps the invariant, as the CORE's writes do. -/
theorem State.Inv.setMem_write {s : State} (hinv : s.Inv) {a : Nat} (hlt : a < s.params.memSize) (v : Byte) :
    (s.setMem (s.mem.write a v)).Inv := by
  obtain ⟨hparams, hwf, hbelow⟩ := hinv
  exact ⟨hparams, Memory.wf_write a v hwf, Memory.below_write hlt v hbelow⟩

theorem State.Inv.newCpu {s : State} (hinv : s.Inv) : s.newCpu.Inv := hinv

theorem State.Inv.newMachine {s : State} (hinv : s.Inv) : s.newMachine.Inv := State.inv_construct hinv.1

/-- What a state that the host leaves keeps of the one it began with. -/
structure HostKeeps (sameCpu : Prop) (s t : State) : Prop where
  inv : s.Inv → t.Inv
  params : t.params = s.params
  cycles : sameCpu → s.cycles ≤ t.cycles

theorem HostKeeps.refl (sameCpu : Prop) (s : State) : HostKeeps sameCpu s s := ⟨id, rfl, fun _ => le_refl s.cycles⟩

theorem HostKeeps.trans {p q r : Prop} {s t w : State} (hst : HostKeeps p s t) (htw : HostKeeps q t w) (hp : r → p) (hq : r → q) :
    HostKeeps r s w :=
  ⟨htw.inv ∘ hst.inv, htw.params.trans hst.params, fun hr => (hst.cycles (hp hr)).trans (htw.cycles (hq hr))⟩

/-- The caller's view keeps what an answer keeps: after a failure it is the state before. -/
theorem hostKeeps_viewOf {sameCpu : Prop} {s : State} {r : Result State} (hnext : ∀ t, r = .next t → HostKeeps sameCpu s t) :
    HostKeeps sameCpu s (viewOf s r).state := by
  cases r with
  | next t => exact hnext t rfl
  | fault x => exact HostKeeps.refl sameCpu s
  | refused x => exact HostKeeps.refl sameCpu s

/-- Every action of the host keeps the invariant and the parameters, and the counter does not go down but on a new CPU. -/
theorem hostKeeps_act (x : DriverAction) (s : State) : HostKeeps (x.keepsCpu = true) s (act x s).state := by
  cases x with
  | step => exact hostKeeps_viewOf fun t hstep => ⟨fun hinv => step_inv hinv hstep, step_params hstep, fun _ => step_cycles_le hstep⟩
  | write a v =>
    refine hostKeeps_viewOf fun t hwrite => ?_
    obtain ⟨hlt, rfl⟩ := memWrite_eq_next.mp hwrite
    exact ⟨fun hinv => hinv.setMem_write hlt v, rfl, fun _ => le_refl s.cycles⟩
  | newCpu => exact ⟨State.Inv.newCpu, rfl, nofun⟩
  | newMachine => exact ⟨State.Inv.newMachine, rfl, nofun⟩

theorem hostKeeps_runDriver (xs : List DriverAction) (s : State) :
    HostKeeps (∀ x ∈ xs, x.keepsCpu = true) s (runDriver xs s).state := by
  induction xs generalizing s with
  | nil => exact HostKeeps.refl _ s
  | cons x xs ih =>
    have hact := hostKeeps_act x s
    simp only [List.forall_mem_cons, runDriver]
    split
    · exact hact.trans (ih _) And.left And.right
    · exact hact.trans (HostKeeps.refl True _) And.left fun _ => trivial

/-- Settles O40: by induction over the run, every action keeps what the run is to keep. -/
theorem hostRunsKeepTheInvariant : Obligations.HostRunsKeepTheInvariant := by
  intro xs s hinv
  have hrun := hostKeeps_runDriver xs s
  exact ⟨hrun.inv hinv, hrun.params, hrun.cycles⟩

/-- Settles O42: by induction over the first part, which hands on its state unless it stopped. -/
theorem runsEndAtTheFirstFailure : Obligations.RunsEndAtTheFirstFailure := by
  intro xs ys s
  induction xs generalizing s with
  | nil => rfl
  | cons x xs ih =>
    simp only [List.cons_append, runDriver]
    cases hstop : (act x s).stop with
    | none => exact ih _
    | some r => rfl

end Sys2Proof.Machine
end

section
/-! PROOF. The instructions, class by class (41_load8.md, 42_load16.md, 43_push.md). What any instruction answers gives the frames, and the
decision by its data accesses gives completion and faults; each class adds the value that it moves. -/

namespace Sys2Proof.Machine

open Sys2Proof.Claims

/-! ### From every instruction to one -/

theorem exec_frame {i : Instr} {s t : State} (hexec : exec i s = .next t) :
    Frame (destRegs i) (storeAddrs i s) i.length i.cost s t := by
  have hnext := exec_next i s t hexec
  exact ⟨hnext.get, fun _ => hnext.peek_other, hnext.params, hnext.pc, hnext.cycles⟩

theorem exec_plainFrame {i : Instr} {s t : State} (hexec : exec i s = .next t) (hsp : writesSp i = false)
    (hflags : writesFlags i = false) : PlainFrame (destRegs i) (storeAddrs i s) i.length i.cost s t :=
  ⟨exec_frame hexec, (exec_next i s t hexec).sp hsp, (exec_next i s t hexec).flags hflags⟩

/-- The byte of an instruction with one store reads back. -/
theorem peek_of_one_store {i : Instr} {s t : State} {a : Nat} {v : Byte} (hexec : exec i s = .next t)
    (hstores : storesOf i s = [(a, v)]) (hwf : s.mem.wf = true) : t.peek a = v := by
  rw [(exec_next i s t hexec).peek, hstores]
  exact Memory.read_write_same v hwf

/-- The bytes of an instruction with two stores to different cells read back. -/
theorem peek_of_two_stores {i : Instr} {s t : State} {a b : Nat} {v w : Byte} (hexec : exec i s = .next t)
    (hstores : storesOf i s = [(a, v), (b, w)]) (hne : a ≠ b) (hwf : s.mem.wf = true) : t.peek a = v ∧ t.peek b = w := by
  simp only [(exec_next i s t hexec).peek, hstores, Memory.writeAll]
  exact ⟨by rw [Memory.read_write_other hne, Memory.read_write_same v hwf], Memory.read_write_same w (Memory.wf_write a v hwf)⟩

section Accesses
variable {i : Instr} {s : State} {P : State → Prop} (hP : ∀ t, exec i s = .next t → P t)
include hP

/-- An instruction with one data access completes, with what its answers have, or faults there. -/
theorem exec_one_access {a : Nat} (haddrs : dataAddrs i s = [a]) :
    (a < s.params.memSize → ∃ t, exec i s = .next t ∧ P t) ∧
      (s.params.memSize ≤ a → exec i s = .fault (.outOfRangeAddress a s.pc)) := by
  have hdecided := exec_decidedBy i s
  rw [haddrs, decidedBy_cons, decidedBy_nil] at hdecided
  refine ⟨fun hlt => ?_, hdecided.1⟩
  obtain ⟨t, hexec⟩ := hdecided.2 hlt
  exact ⟨t, hexec, hP t hexec⟩

/-- An instruction with two data accesses completes, with what its answers have, or faults at the first of them that does not exist. -/
theorem exec_two_accesses {a b : Nat} (haddrs : dataAddrs i s = [a, b]) :
    (a < s.params.memSize → b < s.params.memSize → ∃ t, exec i s = .next t ∧ P t) ∧
      (s.params.memSize ≤ a → exec i s = .fault (.outOfRangeAddress a s.pc)) ∧
      (a < s.params.memSize → s.params.memSize ≤ b → exec i s = .fault (.outOfRangeAddress b s.pc)) := by
  have hdecided := exec_decidedBy i s
  rw [haddrs, decidedBy_cons, decidedBy_cons, decidedBy_nil] at hdecided
  refine ⟨fun hlt hlt₂ => ?_, hdecided.1, fun hlt => (hdecided.2 hlt).1⟩
  obtain ⟨t, hexec⟩ := (hdecided.2 hlt).2 hlt₂
  exact ⟨t, hexec, hP t hexec⟩

end Accesses

theorem get_of_loadByte {r : Reg} {addr len cost : Nat} {s t : State} (hload : loadByte r addr len cost s = .next t) :
    t.get r = s.peek addr := by
  obtain ⟨-, rfl⟩ := loadByte_eq_next.mp hload
  rw [State.advance_get, State.set_get_same]

/-! ### 8-bit loads (41_load8.md) -/

/-- Settles O45: all 49 are one equation, and the frame is that of its footprint. -/
theorem loadRegisterFromRegister : Obligations.LoadRegisterFromRegister := by
  intro dst src s
  refine ⟨_, exec_ldRR dst src s, by rw [State.advance_get, State.set_get_same], ?frame⟩
  case frame =>
    have hframe := exec_plainFrame (exec_ldRR dst src s)
    cases dst <;> cases src <;> exact hframe rfl rfl

/-- Settles O46: all 7 are one equation, and the frame is that of its footprint. -/
theorem loadRegisterImmediate : Obligations.LoadRegisterImmediate := by
  intro dst n s
  refine ⟨_, exec_ldRN dst n s, by rw [State.advance_get, State.set_get_same], ?frame⟩
  case frame =>
    have hframe := exec_plainFrame (exec_ldRN dst n s)
    cases dst <;> exact hframe rfl rfl

/-- Settles O47: one read, at HL, and its byte. -/
theorem loadRegisterAtHl : Obligations.LoadRegisterAtHl := by
  intro dst s
  refine exec_one_access (fun t hexec => ⟨?value, ?frame⟩) ?addrs
  case value => exact get_of_loadByte ((exec_ldRAtHL dst s).symm.trans hexec)
  case frame => cases dst <;> exact exec_plainFrame hexec rfl rfl
  case addrs => cases dst <;> rfl

/-- Settles O48: one store, at HL. -/
theorem storeRegisterAtHl : Obligations.StoreRegisterAtHl := by
  intro src s
  refine exec_one_access (fun t hexec => ⟨peek_of_one_store hexec ?stores, ?frame⟩) ?addrs
  case stores => cases src <;> rfl
  case frame => cases src <;> exact exec_plainFrame hexec rfl rfl
  case addrs => cases src <;> rfl

/-- Settles O49: one store, at HL. -/
theorem storeImmediateAtHl : Obligations.StoreImmediateAtHl :=
  fun _ _ => exec_one_access (fun _ hexec => ⟨peek_of_one_store hexec rfl, exec_plainFrame hexec rfl rfl⟩) rfl

/-- Settles O50: each of the five is a load of A. -/
theorem loadAccumulator : Obligations.LoadAccumulator := by
  intro n nn s
  simp only [List.forall_mem_cons]
  refine ⟨?atBC, ?atDE, ?atNN, ?ioC, ?ioN, List.forall_mem_nil _⟩
  all_goals exact exec_one_access (fun _ hexec => ⟨get_of_loadByte (r := .a) hexec, exec_plainFrame hexec rfl rfl⟩) rfl

/-- Settles O51: each of the five has one store, of A. -/
theorem storeAccumulator : Obligations.StoreAccumulator := by
  intro n nn s
  simp only [List.forall_mem_cons]
  refine ⟨?atBC, ?atDE, ?atNN, ?ioC, ?ioN, List.forall_mem_nil _⟩
  all_goals exact exec_one_access (fun _ hexec => ⟨peek_of_one_store hexec rfl, exec_plainFrame hexec rfl rfl⟩) rfl

/-- A decrement as the statements write it. -/
theorem hlAddress_decrementHl_add (s : State) : hlAddress (decrementHl s) = hlAddress s + 0xFFFF#16 := by
  rw [hlAddress_decrementHl]
  bv_omega

/-- What a load of A at HL that then moves HL answers. -/
theorem load_moving_next {move : State → State} {d : Word} {len cost : Nat} {s t : State}
    (ha : ∀ u, (move u).get .a = u.get .a) (hmove : ∀ u, hlAddress (move u) = hlAddress u + d)
    (hexec : andThen (memRead (hlAddress s).toNat s) (fun v => commit len cost (move (s.set .a v))) = .next t) :
    t.a = s.peek (hlAddress s).toNat ∧ hlAddress t = hlAddress s + d := by
  simp only [andThen_eq_next, memRead_eq_next, commit_eq, Host.Outcome.next.injEq] at hexec
  obtain ⟨_, ⟨-, rfl⟩, rfl⟩ := hexec
  refine ⟨?value, by rw [hlAddress_advance, hmove, hlAddress_set_a]⟩
  case value => exact (ha _).trans (State.set_get_same s .a _)

/-- What a store of A at HL that then moves HL answers. -/
theorem store_moving_next {move : State → State} {d : Word} {len cost : Nat} {s t : State}
    (hmove : ∀ u, hlAddress (move u) = hlAddress u + d)
    (hexec : andThen (memWrite (hlAddress s).toNat s.a s) (fun u => commit len cost (move u)) = .next t) :
    hlAddress t = hlAddress s + d := by
  simp only [andThen_eq_next, memWrite_eq_next, commit_eq, Host.Outcome.next.injEq] at hexec
  obtain ⟨_, ⟨-, rfl⟩, rfl⟩ := hexec
  rw [hlAddress_advance, hmove, hlAddress_setMem]

/-- Settles O52: one read, at HL, and then HL moves. -/
theorem loadAccumulatorMovingHl : Obligations.LoadAccumulatorMovingHl := by
  intro s
  simp only [List.forall_mem_cons]
  refine ⟨exec_one_access (fun t hexec => ?increment) rfl, exec_one_access (fun t hexec => ?decrement) rfl, List.forall_mem_nil _⟩
  case increment =>
    obtain ⟨hvalue, hhl⟩ := load_moving_next (fun u => incrementHl_get_other u nofun nofun) hlAddress_incrementHl hexec
    exact ⟨hvalue, hhl, exec_plainFrame hexec rfl rfl⟩
  case decrement =>
    obtain ⟨hvalue, hhl⟩ := load_moving_next (fun u => decrementHl_get_other u nofun nofun) hlAddress_decrementHl_add hexec
    exact ⟨hvalue, hhl, exec_plainFrame hexec rfl rfl⟩

/-- Settles O53: one store, at HL, and then HL moves. -/
theorem storeAccumulatorMovingHl : Obligations.StoreAccumulatorMovingHl := by
  intro s
  simp only [List.forall_mem_cons]
  refine ⟨exec_one_access (fun t hexec => ?increment) rfl, exec_one_access (fun t hexec => ?decrement) rfl, List.forall_mem_nil _⟩
  case increment =>
    exact ⟨peek_of_one_store hexec rfl, store_moving_next hlAddress_incrementHl hexec, exec_plainFrame hexec rfl rfl⟩
  case decrement =>
    exact ⟨peek_of_one_store hexec rfl, store_moving_next hlAddress_decrementHl_add hexec, exec_plainFrame hexec rfl rfl⟩

/-! ### 16-bit loads (42_load16.md) -/

theorem pair_load_contract {i : Instr} {hi lo : Reg} {v : Word} {len cost : Nat} {s : State} (hne : hi ≠ lo)
    (hexec : exec i s = .next ((s.setPair hi lo v).advance len cost))
    (hframe : ∀ t, exec i s = .next t → PlainFrame [hi, lo] [] len cost s t) :
    ∃ t, exec i s = .next t ∧ (t.get hi).toNat = v.toNat / 256 ∧ (t.get lo).toNat = v.toNat % 256 ∧
      PlainFrame [hi, lo] [] len cost s t := by
  refine ⟨_, hexec, ?hi, ?lo, hframe _ hexec⟩
  case hi => rw [State.advance_get, State.setPair_get_hi hne, hiByte_toNat]
  case lo => rw [State.advance_get, State.setPair_get_lo, loByte_toNat]

/-- Settles O54: each of the three writes its pair. -/
theorem loadPairImmediate : Obligations.LoadPairImmediate := by
  intro nn s
  simp only [pairLoads, List.forall_mem_cons]
  refine ⟨?bc, ?de, ?hl, List.forall_mem_nil _⟩
  all_goals exact pair_load_contract (by decide) rfl fun _ hexec => exec_plainFrame hexec rfl rfl

/-- Settles O55: both set SP and commit. -/
theorem loadStackPointer : Obligations.LoadStackPointer := by
  intro nn s
  have himmediate : exec (.ldSPNN nn) s = .next ((s.setSp nn).advance 3 12) := rfl
  have hfromHl : exec .ldSPHL s = .next ((s.setSp (hlAddress s)).advance 1 8) := rfl
  exact ⟨⟨_, himmediate, rfl, rfl, exec_frame himmediate⟩, _, hfromHl, rfl, rfl, exec_frame hfromHl⟩

theorem wrap16_toNat (v : Int) : ((wrap16 v).toNat : Int) = v % 65536 := by
  rw [wrap16, BitVec.toNat_ofInt]
  omega

/-- Settles O56: HL is written first, and then the flags, which leave it alone. -/
theorem loadHlFromSpPlusDisplacement : Obligations.LoadHlFromSpPlusDisplacement := by
  intro n s
  refine ⟨_, rfl, ?hl, ?flags, ?sp, ?frame⟩
  case hl =>
    change ((hlAddress (s.setPair .h .l (wrap16 (spPlus s.sp n)))).toNat : Int) = _
    rw [hlAddress, State.getPair_setPair (by decide), wrap16_toNat, spPlus]
  case flags => rfl
  case sp => exact s.setPair_sp .h .l (wrap16 (spPlus s.sp n))
  case frame => exact exec_frame (i := .ldHLSPN n) rfl

/-- Settles O59: two stores, at nn and at the address after it, which are different. -/
theorem storeStackPointer : Obligations.StoreStackPointer := by
  refine fun nn s => exec_two_accesses (fun t hexec => ⟨fun hwf => ?stored, exec_plainFrame hexec rfl rfl⟩) rfl
  case stored =>
    obtain ⟨hlo, hhi⟩ := peek_of_two_stores hexec rfl (addrPlus_one_ne s.params nn.toNat nn.isLt).symm hwf
    rw [hlo, hhi, loByte_toNat, hiByte_toNat]
    exact ⟨rfl, rfl⟩

/-! ### PUSH (43_push.md) -/

/-- The two slots of a push are different cells. -/
theorem push_slots_ne (sp : Word) : (sp - 1#16).toNat ≠ (sp - 2#16).toNat := by
  bv_omega

/-- What an instruction that is a push of two bytes answers. -/
theorem push_next {i : Instr} {hi lo : Byte} {len cost : Nat} {s t : State} (hexec : exec i s = .next t)
    (hpush : exec i s = pushPair hi lo len cost s)
    (hstores : storesOf i s = [((s.sp - 1#16).toNat, hi), ((s.sp - 2#16).toNat, lo)]) (hflags : writesFlags i = false) :
    t.sp = s.sp - 2#16 ∧ t.flags = s.flags ∧
      (s.mem.wf = true → t.peek (s.sp - 1#16).toNat = hi ∧ t.peek (s.sp - 2#16).toNat = lo) ∧
      Frame (destRegs i) (storeAddrs i s) i.length i.cost s t := by
  refine ⟨?sp, (exec_next i s t hexec).flags hflags, peek_of_two_stores hexec hstores (push_slots_ne s.sp), exec_frame hexec⟩
  case sp =>
    obtain ⟨-, -, rfl⟩ := pushPair_eq_next.mp (hpush.symm.trans hexec)
    exact sub_one_sub_one s.sp

/-- Settles O60: each of the four is a push of two bytes. -/
theorem pushWritesHighThenLow : Obligations.PushWritesHighThenLow := by
  intro s
  simp only [List.forall_mem_cons]
  refine ⟨?bc, ?de, ?hl, ?af, List.forall_mem_nil _⟩
  all_goals exact exec_two_accesses (fun _ hexec => push_next hexec rfl rfl rfl) rfl

end Sys2Proof.Machine
end
